-- ==== Sys2Proof/Word.lean ====
section
/-! DEFINITION. The word types of the block: a byte of the serial stream, a 16-bit register or wire
field, a `TIME_W`-bit timestamp (spec/00_scope.md R7, R9; spec/10_state.md R22, R24, R26, R32), and the
transient Packet (R29). Their plainest arithmetic is `BitVec`'s own. -/

namespace Sys2Proof

/-- A byte: 8 bits, bit 7 the most significant (R9). -/
abbrev Byte := BitVec 8

/-- A 16-bit unsigned value: pulse widths, step sizes, intervals and two-byte wire fields (R22, R24, R76). -/
abbrev Half := BitVec 16

/-- A timestamp or a length of time: `TIME_W` = 32 bits, wrapping (R7, R181). -/
abbrev Time := BitVec 32

/-- A channel index, 0 to 3 (R12, R22). -/
abbrev Channel := Fin 4

/-- The four channels in the order the motion phase and the responses take them (R170, R145, R153). -/
def channels : List Channel := [0, 1, 2, 3]

/-- The transient value the framer hands to the dispatcher (R29). The framer makes one only for a valid
frame, so the spec's third component `valid` is 1 wherever a Packet exists and is not stored
(DEDUCED from R29 and R30; assumption log 15). -/
structure Packet where
  command : Byte
  payload : List Byte
  deriving DecidableEq, Repr

end Sys2Proof
end

