-- ==== Sys2Proof/Config.lean ====
section
/-! DEFINITION. The numeric limits of the block (spec/00_scope.md R7; the constants of the wire
format stand in Sys2Proof/Decode.lean), its three OPEN parameters as one plain record with the values of the
device at hand left opaque (R7, R8), and the causes of spec/60_exceptions.md R210. -/

namespace Sys2Proof

namespace Config

/-- `BROADCAST`, the STOP_MOVE sentinel (R7, R77). -/
def broadcast : Byte := 0xFF
/-- `N_CH` (R7). -/
def nCh : Nat := 4
/-- `MAX_PAYLOAD` (R7). -/
def maxPayload : Nat := 32
/-- `PW_MIN` in microseconds (R7). -/
def pwMin : Nat := 500
/-- `PW_MAX` in microseconds (R7). -/
def pwMax : Nat := 2500
/-- `DEG_MAX` in whole degrees (R7). -/
def degMax : Nat := 180

/-- The three OPEN parameters of R7, the arguments of the model. Their legal ranges are
`Params.wf` (Sys2Proof/WellFormed.lean). -/
structure Params where
  /-- `FRAME_TIMEOUT`, in counts of `now` (R7, R108). -/
  frameTimeout : Time
  /-- `PING_PAYLOAD` (R7, R140). -/
  pingPayload : List Byte
  /-- `PW_INIT` (R7, R34). -/
  pwInit : Half
  deriving DecidableEq, Repr

/-! DESIGN CHOICE, assumption log 1 (safe): the source gives no value for the three parameters, so the
device's own values are constants without a body. Their types hold exactly the legal values of R7. -/

/-- `FRAME_TIMEOUT` of the device: any value below `2^(TIME_W-1)`. -/
opaque deviceFrameTimeout : BitVec 31
/-- The length of the device's `PING_PAYLOAD`: 0 to 32. -/
opaque devicePingLength : Fin 33
/-- The bytes of the device's `PING_PAYLOAD`. -/
opaque devicePingByte : Nat → Byte
/-- `PW_INIT - PW_MIN` of the device: 0 to 2000. -/
opaque devicePwInitOffset : Fin 2001

/-- The parameters of the device at hand. -/
def device : Params where
  frameTimeout := deviceFrameTimeout.setWidth 32
  pingPayload := (List.range devicePingLength.val).map devicePingByte
  pwInit := BitVec.ofNat 16 (pwMin + devicePwInitOffset.val)

end Config

/-- The error causes of R210. No cause appears at a port: they are labels of the model's event record
(assumption log 4). -/
inductive Cause where
  | badStartMarker    -- FramingError, R102
  | lengthOverflow    -- FramingError, R103
  | badEndMarker      -- FramingError, R107
  | checksumMismatch  -- FramingError, R107
  | frameTimeout      -- FramingError, R108
  | badLength         -- ProtocolError, R133
  | badChannel        -- ProtocolError, R135
  | badPulseWidth     -- ProtocolError, R141
  | unknownCommand    -- UnknownCommand, R132
  deriving DecidableEq, Repr

/-- The three error classes of R210. -/
inductive ErrorClass where
  | framingError
  | protocolError
  | unknownCommand
  deriving DecidableEq, Repr

/-- The class of each cause (R210). -/
def Cause.errorClass : Cause → ErrorClass
  | .badStartMarker | .lengthOverflow | .badEndMarker | .checksumMismatch | .frameTimeout => .framingError
  | .badLength | .badChannel | .badPulseWidth => .protocolError
  | .unknownCommand => .unknownCommand

/-- The cause number of R210. -/
def Cause.number : Cause → Nat
  | .badStartMarker => 1
  | .lengthOverflow => 2
  | .badEndMarker => 3
  | .checksumMismatch => 4
  | .frameTimeout => 5
  | .badLength => 16
  | .badChannel => 17
  | .badPulseWidth => 18
  | .unknownCommand => 32

end Sys2Proof
end

