-- ==== Sys2Proof/Syntax.lean ====
section
/-! DEFINITION. The commands of `pyLUMS-CMD`, one constructor per row of spec/opcode_table.json, with the
operand fields of spec/30_encoding.md R75 and R76 already assembled. A channel operand stays the byte of the
frame: an index outside 0..3 is a legal encoding, answered with ERROR (R77, R135). -/

namespace Sys2Proof

/-- A command with its operands. -/
inductive Instr where
  /-- PING (code 01, R140). -/
  | ping
  /-- SET_SERVO (code 02, R141): channel, pulse width in microseconds. -/
  | setServo (channel : Byte) (pw : Half)
  /-- GET_SERVO (code 03, R143): channel. -/
  | getServo (channel : Byte)
  /-- GET_ALL (code 04, R145). -/
  | getAll
  /-- MOVE_STEPPED (code 05, R147): channel, target and step in whole degrees, delay in time units. -/
  | moveStepped (channel : Byte) (target : Half) (step : Byte) (delay : Half)
  /-- STOP_MOVE (code 06, R150): channel, or FF for all four. -/
  | stopMove (channel : Byte)
  /-- GET_MOVE_STATUS (code 07, R153). -/
  | getMoveStatus
  deriving DecidableEq, Repr

end Sys2Proof
end

