-- ==== Sys2Proof/WellFormed.lean ====
section
/-! DEFINITION. The checks on data: the legal range of the OPEN parameters (spec/00_scope.md R7,
spec/93_implementation_defined.md section 3), the bounds of a Packet (spec/10_state.md R29), and which
operand fields of a command are in range (spec/30_encoding.md R76, R77; spec/41_dispatcher.md R135, R141).
A command whose fields are out of range is still a command: it decodes, runs and is answered with ERROR. -/

namespace Sys2Proof

/-- The OPEN parameters are inside the ranges of R7. -/
def Config.Params.wf (p : Config.Params) : Bool :=
  decide (p.frameTimeout.toNat < 2 ^ 31)
    && decide (p.pingPayload.length ≤ Config.maxPayload)
    && decide (Config.pwMin ≤ p.pwInit.toNat)
    && decide (p.pwInit.toNat ≤ Config.pwMax)

/-- A Packet's payload is bounded by `MAX_PAYLOAD` (R29). -/
def Packet.wf (p : Packet) : Bool :=
  decide (p.payload.length ≤ Config.maxPayload)

/-- The channel byte names a channel (R77, R135). -/
def channelInRange (ch : Byte) : Bool :=
  decide (ch.toNat < Config.nCh)

/-- Every operand field of the command is in the range its rule asks for (R77, R141, R147, R150), so the
command is accepted. -/
def Instr.wf : Instr → Bool
  | .ping => true
  | .setServo ch pw =>
    channelInRange ch && decide (Config.pwMin ≤ pw.toNat) && decide (pw.toNat ≤ Config.pwMax)
  | .getServo ch => channelInRange ch
  | .getAll => true
  | .moveStepped ch _ _ _ => channelInRange ch
  | .stopMove ch => channelInRange ch || decide (ch = Config.broadcast)
  | .getMoveStatus => true

end Sys2Proof
end

