-- ==== Sys2Proof/Decode.lean ====
section
/-! DEFINITION. Frames and commands as bytes: byte order (spec/20_memory.md R52, spec/30_encoding.md R76),
the checksum (spec/40_framer.md R100), the decoder of a Packet and of a whole frame, total on any bytes
and rejecting by name (spec/30_encoding.md R70-R84, spec/41_dispatcher.md R130-R133), and after it the
encoder and the two functions over words of spec/opcode_table.json. -/

namespace Sys2Proof

/-! ## Constants of the wire format -/

namespace Config

/-- `START_BYTE` (R7). -/
def startByte : Byte := 0xAA
/-- `END_BYTE` (R7). -/
def endByte : Byte := 0x55
/-- `RESP_OK` (R7, R80). -/
def respOk : Byte := 0x00
/-- `RESP_ERROR` (R7, R80). -/
def respError : Byte := 0xFF

/-! The code of each command, the one table of R79 (the assignment is the spec's choice, 92 D3). -/
/-- PING. -/
def codePing : Byte := 0x01
/-- SET_SERVO. -/
def codeSetServo : Byte := 0x02
/-- GET_SERVO. -/
def codeGetServo : Byte := 0x03
/-- GET_ALL. -/
def codeGetAll : Byte := 0x04
/-- MOVE_STEPPED. -/
def codeMoveStepped : Byte := 0x05
/-- STOP_MOVE. -/
def codeStopMove : Byte := 0x06
/-- GET_MOVE_STATUS. -/
def codeGetMoveStatus : Byte := 0x07

end Config

/-! ## Bytes and checksums -/

/-- `u16(hi, lo)`, big-endian (R9, R76). -/
def u16 (hi lo : Byte) : Half := hi ++ lo

/-- `hi8(v)` (R9). -/
def hi8 (v : Half) : Byte := v.extractLsb' 8 8

/-- `lo8(v)` (R9). -/
def lo8 (v : Half) : Byte := v.extractLsb' 0 8

/-- A 16-bit field as it stands on the wire, most significant byte first (R52, R194). -/
def be16 (v : Half) : List Byte := [hi8 v, lo8 v]

/-- The XOR of length, command and every payload byte (R100). -/
def checksum (len command : Byte) (payload : List Byte) : Byte :=
  payload.foldl (· ^^^ ·) (len ^^^ command)

/-- The length byte of a payload (R71). -/
def lengthByte (payload : List Byte) : Byte := BitVec.ofNat 8 payload.length

/-- The frame that carries a command or response code and a payload (R70, R71, R190). -/
def frame (code : Byte) (payload : List Byte) : List Byte :=
  [Config.startByte, lengthByte payload, code] ++ payload
    ++ [checksum (lengthByte payload) code payload, Config.endByte]

/-! ## Decoding -/

/-- `REQ_LEN`: the one payload length of each command; none where the code names no command
(R79, R81, R130). -/
def reqLen (c : Byte) : Option Nat :=
  if c = Config.codePing then some 0
  else if c = Config.codeSetServo then some 3
  else if c = Config.codeGetServo then some 1
  else if c = Config.codeGetAll then some 0
  else if c = Config.codeMoveStepped then some 6
  else if c = Config.codeStopMove then some 1
  else if c = Config.codeGetMoveStatus then some 0
  else none

/-- The command a payload of the right length stands for (R75, R76, R79); none for any other. -/
def operands (c : Byte) (payload : List Byte) : Option Instr :=
  match payload with
  | [] =>
    if c = Config.codePing then some .ping
    else if c = Config.codeGetAll then some .getAll
    else if c = Config.codeGetMoveStatus then some .getMoveStatus
    else none
  | [ch] =>
    if c = Config.codeGetServo then some (.getServo ch)
    else if c = Config.codeStopMove then some (.stopMove ch)
    else none
  | [ch, pwHi, pwLo] =>
    if c = Config.codeSetServo then some (.setServo ch (u16 pwHi pwLo)) else none
  | [ch, targetHi, targetLo, step, delayHi, delayLo] =>
    if c = Config.codeMoveStepped then
      some (.moveStepped ch (u16 targetHi targetLo) step (u16 delayHi delayLo))
    else none
  | _ => none

/-- The dispatcher's decoder: the command code is checked first, then the payload length
(R130, R131, R132, R133). -/
def decodePacket (p : Packet) : Except Cause Instr :=
  match reqLen p.command with
  | none => .error .unknownCommand
  | some _ =>
    match operands p.command p.payload with
    | none => .error .badLength
    | some i => .ok i

/-- Why a list of bytes is not a command: it ends inside a frame, the framer drops the frame (R102, R103,
R107), or the dispatcher answers ERROR (R132, R133). -/
inductive Reject where
  | incomplete
  | dropped (c : Cause)
  | answered (c : Cause)
  deriving DecidableEq, Repr

/-- The first frame of a list of bytes and the bytes after it (R70-R73, R82, R83). The checks stand in the
order the framer makes them (R216). -/
def decodeFrame : List Byte → Except Reject (Packet × List Byte)
  | [] => .error .incomplete
  | b :: afterStart =>
    if b ≠ Config.startByte then .error (.dropped .badStartMarker) else
    match afterStart with
    | [] => .error .incomplete
    | len :: afterLen =>
      if Config.maxPayload < len.toNat then .error (.dropped .lengthOverflow) else
      match afterLen with
      | [] => .error .incomplete
      | command :: body =>
        match body.drop len.toNat with
        | cs :: e :: rest =>
          if e ≠ Config.endByte then .error (.dropped .badEndMarker)
          else if cs ≠ checksum len command (body.take len.toNat) then .error (.dropped .checksumMismatch)
          else .ok (⟨command, body.take len.toNat⟩, rest)
        | _ => .error .incomplete

/-- The command that a list of bytes begins with, and the bytes after its frame. -/
def decode (bytes : List Byte) : Except Reject (Instr × List Byte) :=
  match decodeFrame bytes with
  | .error r => .error r
  | .ok (p, rest) =>
    match decodePacket p with
    | .error c => .error (.answered c)
    | .ok i => .ok (i, rest)

/-! ## Encoding -/

/-- The command code (R79). -/
def Instr.code : Instr → Byte
  | .ping => Config.codePing
  | .setServo _ _ => Config.codeSetServo
  | .getServo _ => Config.codeGetServo
  | .getAll => Config.codeGetAll
  | .moveStepped _ _ _ _ => Config.codeMoveStepped
  | .stopMove _ => Config.codeStopMove
  | .getMoveStatus => Config.codeGetMoveStatus

/-- The request payload (R75). -/
def Instr.payload : Instr → List Byte
  | .ping => []
  | .setServo ch pw => [ch, hi8 pw, lo8 pw]
  | .getServo ch => [ch]
  | .getAll => []
  | .moveStepped ch target step delay => [ch, hi8 target, lo8 target, step, hi8 delay, lo8 delay]
  | .stopMove ch => [ch]
  | .getMoveStatus => []

/-- The request frame of a command (R70, R75, R85). -/
def encode (i : Instr) : List Byte := frame i.code i.payload

/-! ## Words of spec/opcode_table.json

DEDUCED, assumption log 5: the table gives a row 8 bits, the command byte (frame offset 2, mask FF), so bit 0
is bit 0 of the command byte and payload byte `k` stands in bits `8(k+1)+7 .. 8(k+1)`. The length byte, the
checksum and the two markers of the frame follow from these. -/

/-- The frame the hardware receives for a table word: command byte and payload bytes from the word, every bit
above `nbits` zero. -/
def tableFrame (nbits w : Nat) : List Byte :=
  let bits := w % 2 ^ nbits
  let c : Byte := BitVec.ofNat 8 bits
  frame c ((List.range ((reqLen c).getD 0)).map fun k => BitVec.ofNat 8 (bits >>> (8 * (k + 1))))

/-- The command the decoder reads from a table word. -/
def decodeTableWord (nbits w : Nat) : Option Instr :=
  match decode (tableFrame nbits w) with
  | .ok (i, []) => some i
  | _ => none

end Sys2Proof
end

