-- ==== Sys2Proof/Machine/State.lean ====
section
/-! DEFINITION. The state of the block (spec/10_state.md): the Position Store (R22), the SteppedMove register
sets (R24), the framer registers (R26), the ports (R32, R33); beside them the model's own data: the OPEN
parameters (spec/00_scope.md R7), the inputs still to come (spec/44_tick.md R206) and the event record
(spec/60_exceptions.md R210). Reset is R34. -/

namespace Sys2Proof.Machine

/-- The reasons the machine stops with a fault. There are none: "A model gives no input a fault, stuck or
refused outcome" (R214), so the type has no constructor and nothing can raise one (safe, assumption log 11). -/
inductive Fault : Type where
  deriving DecidableEq, Repr

/-- The reasons a step is refused. -/
inductive Refusal where
  /-- Raised only by an arm of `exec` whose instruction has no meaning yet; no arm is left that does (safe). -/
  | notModelled (mnemonic : String)
  deriving DecidableEq, Repr

/-- The outcome of a step of this machine. -/
abbrev Result (σ : Type) := Host.Outcome σ Fault Refusal

/-- One SteppedMove register set `mv[i]` (R24). -/
structure Move where
  /-- true = Moving, false = Idle (R30, R31). -/
  active : Bool
  target : Half
  current : Half
  /-- `step_size`, in microseconds. -/
  step : Half
  /-- `step_interval`, in time units. -/
  interval : Half
  /-- `last_step_time`. -/
  last : Time
  deriving DecidableEq, Repr

/-- Which byte of a frame comes next (R27). The spec's 3-bit codes are unobservable (assumption log 10). -/
inductive FState where
  | hunt
  | len
  | cmd
  | pay
  | csum
  | fin   -- END
  deriving DecidableEq, Repr

/-- The framer registers (R26). -/
structure Framer where
  fstate : FState
  flen : BitVec 6
  fcmd : Byte
  fbuf : Vector Byte 32
  fidx : BitVec 6
  facc : Byte
  fcsum : Byte
  ft0 : Time
  deriving DecidableEq, Repr

/-- One event at the input ports (R32): a tick with its timestamp and the bytes available, oldest first, or a
reset. -/
inductive Input where
  | tick (now : Time) (rx : List Byte)
  | reset
  deriving DecidableEq, Repr

structure State where
  /-- The Position Store (R22); `servo_pw[i]` is its continuous image (R33). -/
  pos : Vector Half 4
  /-- The SteppedMove register sets (R24). -/
  mv : Vector Move 4
  /-- The framer registers (R26). -/
  framer : Framer
  /-- The `now` port as the tick sampled it (R32, R203). -/
  now : Time
  /-- The `tx` port: the bytes the last step emitted, in order (R33, R195). -/
  tx : List Byte
  /-- The model's event record (R210): the causes of the last step, in order. -/
  events : List Cause
  /-- The model's own: the input events still to come, oldest first (R206; assumption log 2). -/
  inputs : List Input
  /-- The model's own: the OPEN parameters (R7; assumption log 1). No step writes them. -/
  params : Config.Params
  deriving DecidableEq, Repr

/-- The reset value of a SteppedMove register set (R34). -/
def Move.reset : Move where
  active := false
  target := 0
  current := 0
  step := 0
  interval := 0
  last := 0

/-- The reset value of the framer registers (R34). -/
def Framer.reset : Framer where
  fstate := .hunt
  flen := 0
  fcmd := 0
  fbuf := Vector.replicate 32 0
  fidx := 0
  facc := 0
  fcsum := 0
  ft0 := 0

/-- The state after a reset of a device with parameters `p`, with `ins` still to come (R34, R240). -/
def State.resetWith (p : Config.Params) (ins : List Input) : State where
  pos := Vector.replicate 4 p.pwInit
  mv := Vector.replicate 4 Move.reset
  framer := Framer.reset
  now := 0
  tx := []
  events := []
  inputs := ins
  params := p

/-- The machine right after reset (R34, R240): the device's own parameters, no input pending. -/
def State.reset : State := State.resetWith Config.device []

end Sys2Proof.Machine
end

