-- ==== Sys2Proof/Machine/Ops.lean ====
section
/-! DEFINITION. The operations the rules share: reading and writing `pos` and `mv` (spec/00_scope.md R10),
time (R10, spec/42_motion.md R181), emitting responses (spec/43_response.md R190-R195), and the two error
outcomes `drop(cause)` and `reply_error(cause)`.

The block has no traps: no register saves anything, no mode changes and no vector is taken
(spec/60_exceptions.md R218, R219). What stands in that place is `dropFrame` (a FramingError: R212) and
`replyError` (a ProtocolError or UnknownCommand: R213). -/

namespace Sys2Proof.Machine

/-! ## Registers -/

/-- `pos[i]` (R10, R22). -/
def State.getPos (s : State) (i : Channel) : Half := s.pos[i]

/-- `pos[i] <- v` (R10); so also `servo_pw[i] <- v` (R33). -/
def State.setPos (s : State) (i : Channel) (v : Half) : State := { s with pos := s.pos.set i v }

/-- The actuator output `servo_pw[i]`, always equal to `pos[i]` (R33; assumption log 19). -/
def State.servoPw (s : State) (i : Channel) : Half := s.getPos i

/-- `mv[i]` (R10, R24). -/
def State.getMove (s : State) (i : Channel) : Move := s.mv[i]

/-- Writing every field of `mv[i]` (R10). -/
def State.setMove (s : State) (i : Channel) (m : Move) : State := { s with mv := s.mv.set i m }

/-- Writing framer registers. -/
def State.setFramer (s : State) (f : Framer) : State := { s with framer := f }

/-! ## Time -/

/-- `elapsed(t) = (now - t) mod 2^TIME_W` (R10, R181). -/
def elapsed (now t : Time) : Time := now - t

/-! ## Output and errors -/

/-- `emit(bytes)`: append to the tick's `tx` (R195). -/
def State.emit (s : State) (bytes : List Byte) : State := { s with tx := s.tx ++ bytes }

/-- Append a cause to the model's event record (R210). -/
def State.record (s : State) (c : Cause) : State := { s with events := s.events ++ [c] }

/-- `reply_ok(P)`: the OK response (R190, R192). -/
def replyOk (payload : List Byte) (s : State) : State := s.emit (frame Config.respOk payload)

/-- `reply_error(cause)`: the ERROR response, the same five bytes for every cause (R193, R213). -/
def replyError (c : Cause) (s : State) : State := (s.record c).emit (frame Config.respError [])

/-- `resync()`: back to HUNT, every scalar register zero, `fbuf` kept (R101). -/
def Framer.resync (f : Framer) : Framer :=
  { f with fstate := .hunt, flen := 0, fcmd := 0, fidx := 0, facc := 0, fcsum := 0, ft0 := 0 }

/-- `drop(cause)` and `resync()`: a FramingError discards the frame in progress and sends nothing (R212). -/
def dropFrame (c : Cause) (s : State) : State := (s.record c).setFramer s.framer.resync

/-! ## Sequencing -/

/-- Go on with `k` from a next state. -/
def andThen {σ τ : Type} (r : Result σ) (k : σ → Result τ) : Result τ :=
  match r with
  | .next s => k s
  | .fault e => .fault e
  | .refused e => .refused e

end Sys2Proof.Machine
end

