-- ==== Sys2Proof/Machine/Flags.lean ====
section
/-! DEFINITION. The only flags of the block, `mv[i].active` (spec/10_state.md R30, R31). MOVE_STEPPED sets one,
STOP_MOVE and the motion engine's snap clear them, the engine and GET_MOVE_STATUS read them. -/

namespace Sys2Proof.Machine

/-- The flag byte GET_MOVE_STATUS reports: 01 Moving, 00 Idle (R153). -/
def activeByte (m : Move) : Byte := if m.active then 0x01 else 0x00

/-- `mv[i].active <- 0`; every other field is kept (R150, R177). -/
def clearActive (i : Channel) (s : State) : State :=
  s.setMove i { s.getMove i with active := false }

/-- `for i in 0..3: mv[i].active <- 0` (R150). -/
def clearAllActive (s : State) : State := channels.foldl (fun t i => clearActive i t) s

end Sys2Proof.Machine
end

