-- ==== Sys2Proof/Machine/Operands.lean ====
section
/-! DEFINITION. What a command does to its operand fields before it uses them: the channel check
(spec/41_dispatcher.md R135) and the three conversions (R136-R138), in integer arithmetic with floor division
(spec/00_scope.md R9). -/

namespace Sys2Proof.Machine

/-- The channel a byte names; none outside 0..3, never clamped (R77, R135). -/
def channelOf (ch : Byte) : Option Channel :=
  if h : ch.toNat < 4 then some ⟨ch.toNat, h⟩ else none

/-- The pulse width is in `[PW_MIN, PW_MAX]` (R141). -/
def pulseInRange (pw : Half) : Bool :=
  decide (Config.pwMin ≤ pw.toNat) && decide (pw.toNat ≤ Config.pwMax)

/-- `min(d, DEG_MAX) * (PW_MAX - PW_MIN) / DEG_MAX`: degrees, clamped, to a length in microseconds
(R136, R137). -/
def degToSpan (d : Nat) : Nat :=
  min d Config.degMax * (Config.pwMax - Config.pwMin) / Config.degMax

/-- `deg_to_pw(d)` (R136). -/
def degToPw (d : Half) : Half := BitVec.ofNat 16 (Config.pwMin + degToSpan d.toNat)

/-- `step_to_pw(s)`: a computed zero is forced to 1 (R137). -/
def stepToPw (s : Byte) : Half :=
  BitVec.ofNat 16 (if degToSpan s.toNat = 0 then 1 else degToSpan s.toNat)

/-- `pw_to_deg100(pw)` (R138). Below `PW_MIN`, where no rule reaches, the natural subtraction stops at 0
(DESIGN CHOICE, assumption log 7). -/
def pwToDeg100 (pw : Half) : Half :=
  BitVec.ofNat 16
    ((pw.toNat - Config.pwMin) * Config.degMax * 100 / (Config.pwMax - Config.pwMin))

end Sys2Proof.Machine
end

