-- ==== Sys2Proof/Machine/Query.lean ====
section
/-! DEFINITION. The commands that only report: PING, GET_SERVO, GET_ALL, GET_MOVE_STATUS
(spec/41_dispatcher.md R140, R143, R145, R153; response payloads spec/43_response.md R191). -/

namespace Sys2Proof.Machine

/-- PING (R140): the constant marker payload. -/
def execPing (s : State) : Result State := .next (replyOk s.params.pingPayload s)

/-- GET_SERVO (R143): the channel byte as it came and `pos[ch]`. -/
def execGetServo (ch : Byte) (s : State) : Result State :=
  match channelOf ch with
  | none => .next (replyError .badChannel s)
  | some i => .next (replyOk (ch :: be16 (s.getPos i)) s)

/-- GET_ALL (R145): the four pulse widths in channel order. -/
def execGetAll (s : State) : Result State :=
  .next (replyOk (channels.flatMap fun i => be16 (s.getPos i)) s)

/-- GET_MOVE_STATUS (R153): four flag bytes, then four positions in degrees x 100. -/
def execGetMoveStatus (s : State) : Result State :=
  .next (replyOk
    ((channels.map fun i => activeByte (s.getMove i))
      ++ channels.flatMap fun i => be16 (pwToDeg100 (s.getPos i))) s)

end Sys2Proof.Machine
end

