-- ==== Sys2Proof/Machine/Servo.lean ====
section
/-! DEFINITION. SET_SERVO (spec/41_dispatcher.md R141, R142). -/

namespace Sys2Proof.Machine

/-- SET_SERVO (R141): the channel check, then the range check, then the write. The move of the channel is not
touched (R142). -/
def execSetServo (ch : Byte) (pw : Half) (s : State) : Result State :=
  match channelOf ch with
  | none => .next (replyError .badChannel s)
  | some i =>
    if pulseInRange pw then .next (replyOk [] (s.setPos i pw))
    else .next (replyError .badPulseWidth s)

end Sys2Proof.Machine
end

