-- ==== Sys2Proof/Machine/Stepped.lean ====
section
/-! DEFINITION. The commands that start and end a move: MOVE_STEPPED and STOP_MOVE
(spec/41_dispatcher.md R147, R148, R150). -/

namespace Sys2Proof.Machine

/-- The SteppedMove an accepted MOVE_STEPPED sets up: it starts from `pos[ch]`, and its interval runs from this
tick (R147). -/
def startedMove (i : Channel) (target : Half) (step : Byte) (delay : Half) (s : State) : Move where
  active := true
  target := degToPw target
  current := s.getPos i
  step := stepToPw step
  interval := delay
  last := s.now

/-- MOVE_STEPPED (R147): starts a move or replaces the one there is (R148). `pos` is not written. -/
def execMoveStepped (ch : Byte) (target : Half) (step : Byte) (delay : Half) (s : State) : Result State :=
  match channelOf ch with
  | none => .next (replyError .badChannel s)
  | some i => .next (replyOk [] (s.setMove i (startedMove i target step delay s)))

/-- STOP_MOVE (R150): one channel, or all four for FF. Only `active` is written. -/
def execStopMove (ch : Byte) (s : State) : Result State :=
  if ch = Config.broadcast then .next (replyOk [] (clearAllActive s))
  else
    match channelOf ch with
    | some i => .next (replyOk [] (clearActive i s))
    | none => .next (replyError .badChannel s)

end Sys2Proof.Machine
end

