-- ==== Sys2Proof/Machine/Dispatch.lean ====
section
/-! DEFINITION. The dispatcher's choice of command, one arm per command (spec/41_dispatcher.md R130). -/

namespace Sys2Proof.Machine

def exec (i : Instr) (s : State) : Host.Outcome State Fault Refusal :=
  match i with
  | .ping => Sys2Proof.Machine.execPing s
  | .setServo channel pw => Sys2Proof.Machine.execSetServo channel pw s
  | .getServo channel => Sys2Proof.Machine.execGetServo channel s
  | .getAll => Sys2Proof.Machine.execGetAll s
  | .moveStepped channel target step delay => Sys2Proof.Machine.execMoveStepped channel target step delay s
  | .stopMove channel => Sys2Proof.Machine.execStopMove channel s
  | .getMoveStatus => Sys2Proof.Machine.execGetMoveStatus s

end Sys2Proof.Machine
end

