-- ==== Sys2Proof/Machine/Framing.lean ====
section
/-! DEFINITION. The Packet Framer (spec/40_framer.md R101-R112): one rule per value of `fstate`, the choice
among them, and the bounded wait window. A rule answers with the new state and, for the END byte of a valid
frame, the Packet to dispatch. -/

namespace Sys2Proof.Machine

/-- State HUNT (R102). -/
def huntByte (b : Byte) (s : State) : State :=
  if b = Config.startByte then
    s.setFramer { s.framer with fstate := .len, ft0 := s.now, fidx := 0, facc := 0 }
  else s.record .badStartMarker

/-- State LEN (R103). -/
def lenByte (b : Byte) (s : State) : State :=
  if Config.maxPayload < b.toNat then dropFrame .lengthOverflow s
  else s.setFramer { s.framer with flen := b.setWidth 6, facc := b, fstate := .cmd }

/-- State CMD (R104). -/
def cmdByte (b : Byte) (s : State) : State :=
  s.setFramer { s.framer with
    fcmd := b
    facc := s.framer.facc ^^^ b
    fstate := if s.framer.flen = 0#6 then .csum else .pay }

/-- State PAY (R105). No rule reaches `fidx > 31` here; such a write is dropped (assumption log 8). -/
def payByte (b : Byte) (s : State) : State :=
  s.setFramer { s.framer with
    fbuf := s.framer.fbuf.setIfInBounds s.framer.fidx.toNat b
    facc := s.framer.facc ^^^ b
    fidx := s.framer.fidx + 1#6
    fstate := if s.framer.fidx + 1#6 = s.framer.flen then .csum else .pay }

/-- State CSUM (R106). -/
def csumByte (b : Byte) (s : State) : State :=
  s.setFramer { s.framer with fcsum := b, fstate := .fin }

/-- The Packet in the framer registers: `fcmd` and `fbuf[0..flen-1]` (R107). -/
def heldPacket (f : Framer) : Packet := ⟨f.fcmd, f.fbuf.toList.take f.flen.toNat⟩

/-- State END (R107): the end marker is checked before the checksum. -/
def finByte (b : Byte) (s : State) : State × Option Packet :=
  if b ≠ Config.endByte then (dropFrame .badEndMarker s, none)
  else if s.framer.fcsum ≠ s.framer.facc then (dropFrame .checksumMismatch s, none)
  else (s.setFramer s.framer.resync, some (heldPacket s.framer))

/-- `frame_byte(b)`: exactly one of R102 to R107, by `fstate` (R111, R200). -/
def frameByte (b : Byte) (s : State) : State × Option Packet :=
  match s.framer.fstate with
  | .hunt => (huntByte b s, none)
  | .len => (lenByte b s, none)
  | .cmd => (cmdByte b s, none)
  | .pay => (payByte b s, none)
  | .csum => (csumByte b s, none)
  | .fin => finByte b s

/-- `framer_timeout_check()` (R108): an open frame older than `FRAME_TIMEOUT` is dropped. -/
def timeoutCheck (s : State) : State :=
  if s.framer.fstate ≠ .hunt ∧ s.params.frameTimeout.toNat < (elapsed s.now s.framer.ft0).toNat then
    dropFrame .frameTimeout s
  else s

end Sys2Proof.Machine
end

