-- ==== Sys2Proof/Machine/Motion.lean ====
section
/-! DEFINITION. The Stepped-Motion Engine (spec/42_motion.md R170-R183). -/

namespace Sys2Proof.Machine

/-- The signed distance to the target, on unbounded integers (R172). -/
def distance (m : Move) : Int := (m.target.toNat : Int) - (m.current.toNat : Int)

/-- The interval since the last step has elapsed (R171). -/
def due (now : Time) (m : Move) : Bool := decide (m.interval.toNat ≤ (elapsed now m.last).toNat)

/-- One step of a move: snap and finish (R173) or advance by `step` toward the target (R174); either way
`last <- now` (R176). -/
def stepMove (now : Time) (m : Move) : Move :=
  if (distance m).natAbs ≤ m.step.toNat then
    { m with current := m.target, active := false, last := now }
  else if 0 < distance m then
    { m with current := m.current + m.step, last := now }
  else
    { m with current := m.current - m.step, last := now }

/-- `motion_step(i)`: nothing while Idle (R183) or not yet due (R171); else one step, committed to `pos[i]`
at once (R175). -/
def motionStep (i : Channel) (s : State) : State :=
  if (s.getMove i).active && due s.now (s.getMove i) then
    let m := stepMove s.now (s.getMove i)
    (s.setMove i m).setPos i m.current
  else s

/-- `motion_phase()`: channels 0, 1, 2, 3 (R170). -/
def motionPhase (s : State) : State := channels.foldl (fun t i => motionStep i t) s

end Sys2Proof.Machine
end

