-- ==== Sys2Proof/Machine/Tick.lean ====
section
/-! DEFINITION. The scheduler tick (spec/44_tick.md R200-R206) and the other event of the input ports, reset
(spec/70_reset_and_hazards.md R240, R241). -/

namespace Sys2Proof.Machine

/-- `dispatch(pkt)`: the code and length checks, then the command (R130-R134). -/
def dispatch (p : Packet) (s : State) : Result State :=
  match decodePacket p with
  | .error c => .next (replyError c s)
  | .ok i => exec i s

/-- One byte of `rx`: the framer's rule, and the dispatch at once where it completes a valid frame
(R107, R200, R202). -/
def byteStep (b : Byte) (s : State) : Result State :=
  match frameByte b s with
  | (t, none) => .next t
  | (t, some p) => dispatch p t

/-- Every byte of `rx`, oldest first, each finished before the next (R202). -/
def drain : List Byte → State → Result State
  | [], s => .next s
  | b :: bs, s => andThen (byteStep b s) (drain bs)

/-- The start of a tick: `now` is sampled once (R203), `tx` and the event record start empty (R200). -/
def beginTick (now : Time) (s : State) : State := { s with now := now, tx := [], events := [] }

/-- What a tick does before its first byte: the motion phase, then the frame timeout check (R201). -/
def beforeBytes (now : Time) (s : State) : State := timeoutCheck (motionPhase (beginTick now s))

/-- `tick(S, now, rx)` (R200). -/
def tick (now : Time) (rx : List Byte) (s : State) : Result State := drain rx (beforeBytes now s)

/-- The next event at the input ports. With none pending nothing happens: the block's state is held (R226) and
the step emits nothing (DESIGN CHOICE, assumption log 2). Reset gives the reset values and emits nothing
(R240); the parameters are the device's and stay. -/
def runInput (s : State) : Result State :=
  match s.inputs with
  | [] => .next { s with tx := [], events := [] }
  | .tick now rx :: rest => tick now rx { s with inputs := rest }
  | .reset :: rest => .next (State.resetWith s.params rest)

/-- `s` about to receive exactly `bytes`, in one tick at its present time, with no frame open
(assumption log 6). -/
def State.withRx (s : State) (bytes : List Byte) : State :=
  { s with
    framer := { s.framer with fstate := .hunt }
    inputs := .tick s.now bytes :: s.inputs }

end Sys2Proof.Machine
end

