-- ==== Sys2Proof/Machine/Step.lean ====
section
/-! DEFINITION. The step of the machine: one event at the input ports (spec/44_tick.md R200, R206). -/

namespace Sys2Proof.Machine

/-- One step. -/
def step (s : State) : Host.Outcome State Fault Refusal := runInput s

/-- `s` with the frame of a word of spec/opcode_table.json as the bytes of the very next tick. The block fetches
at no address: a command is loaded from outside, through `rx` (spec/20_memory.md R50, R61; assumption log 6). -/
def State.withFetchWord (s : State) (nbits w : Nat) : State := s.withRx (tableFrame nbits w)

end Sys2Proof.Machine
end

