-- ==== Sys2Proof/Safety.lean ====
section
/-! DEFINITION. What claims are stated in: the invariants the spec gives the state (spec/10_state.md R22, R24,
R28; spec/93_implementation_defined.md section 2), what an observer of a run sees (spec/44_tick.md R206), and the
clock requirement with true time (spec/70_reset_and_hazards.md R254). -/

namespace Sys2Proof.Machine

/-! ## Invariants -/

/-- A 16-bit value is a legal pulse width (R12, R22). -/
def legalPulse (v : Half) : Bool := decide (500 ≤ v.toNat) && decide (v.toNat ≤ 2500)

/-- The legal values of `mv[i]` while `active = 1` (R24). -/
def Move.ok (m : Move) : Bool :=
  !m.active
    || (legalPulse m.target && legalPulse m.current && decide (1 ≤ m.step.toNat) && decide (m.step.toNat ≤ 2000))

/-- The payload bytes received so far. -/
def Framer.received (f : Framer) : List Byte := f.fbuf.toList.take f.fidx.toNat

/-- The register invariants of the framer at every byte boundary (R28, with R26's legal values). -/
def Framer.ok (f : Framer) : Bool :=
  match f.fstate with
  | .hunt => true
  | .len => decide (f.fidx = 0) && decide (f.facc = 0)
  | .cmd => decide (f.flen.toNat ≤ 32) && decide (f.fidx = 0) && decide (f.facc = f.flen.setWidth 8)
  | .pay =>
    decide (f.flen.toNat ≤ 32) && decide (f.fidx.toNat < f.flen.toNat)
      && decide (f.facc = f.received.foldl (· ^^^ ·) (f.flen.setWidth 8 ^^^ f.fcmd))
  | .csum | .fin =>
    decide (f.flen.toNat ≤ 32) && decide (f.fidx = f.flen)
      && decide (f.facc = f.received.foldl (· ^^^ ·) (f.flen.setWidth 8 ^^^ f.fcmd))

/-- The invariant of the block at every tick boundary, for a device with legal parameters
(R7, R22, R24, R28). -/
abbrev State.Inv (s : State) : Prop :=
  s.params.wf = true
    ∧ (∀ i : Channel, legalPulse (s.getPos i) = true)
    ∧ (∀ i : Channel, (s.getMove i).ok = true)
    ∧ s.framer.ok = true

/-! ## Observation -/

/-- What a claim may read of `k` steps from `s` (R206): after each, the bytes it emitted and the four actuator
outputs. A step that stopped would end the list. -/
def observe : Nat → State → List (List Byte × Vector Half 4)
  | 0, _ => []
  | k + 1, s =>
    match step s with
    | .next t => (t.tx, t.pos) :: observe k t
    | .fault _ => []
    | .refused _ => []

/-- The whole byte stream sent in `k` steps (R206). -/
def sentBytes (k : Nat) (s : State) : List Byte := (observe k s).flatMap Prod.fst

/-! ## True time -/

/-- The timestamp the platform supplies at true time `T` (R254). -/
def stampOf (T : Nat) : Time := BitVec.ofNat 32 T

/-- A timestamp taken at a true time not more than `bound` before `T`. -/
def stampedWithin (T bound : Nat) (t : Time) : Prop := ∃ L, L ≤ T ∧ T - L ≤ bound ∧ t = stampOf L

/-- At the end of a tick at true time `T`, every Moving channel's `last` and an open frame's `ft0` are
timestamps of true times close enough that `elapsed` will not wrap (R254): a Moving channel took its last step
at most its interval ago, and an open frame began at most `FRAME_TIMEOUT` ago. -/
def ClockOk (T : Nat) (s : State) : Prop :=
  (∀ i : Channel, (s.getMove i).active = true →
      stampedWithin T (s.getMove i).interval.toNat (s.getMove i).last)
    ∧ (s.framer.fstate ≠ .hunt → stampedWithin T s.params.frameTimeout.toNat s.framer.ft0)

end Sys2Proof.Machine
end

