-- ==== Sys2Proof/Certificates/Slice0/Obligations.lean ====
section
/-! DEFINITION. The statements for the provers, with the few words they are written in. Those words
(`Sys2Proof.Claims`) spell out frames and results independently of the model's own operations. Where a clause
rests on a decision the spec marks as its own (spec/92_eei_decisions.md), the docstring names it and the
statement's basis is 'derived'. -/

open Sys2Proof Sys2Proof.Machine

namespace Sys2Proof.Claims

/-- XOR of a list of bytes onto a start value. -/
def xorOnto (start : Byte) (bs : List Byte) : Byte := bs.foldl (· ^^^ ·) start

/-- The more significant byte of a 16-bit value. -/
def upper (v : Half) : Byte := (v >>> 8).setWidth 8

/-- The less significant byte of a 16-bit value. -/
def lower (v : Half) : Byte := v.setWidth 8

/-- The bytes of a frame (spec/30_encoding.md R71). -/
def frameOf (code : Byte) (payload : List Byte) : List Byte :=
  [0xAA, BitVec.ofNat 8 payload.length, code] ++ payload
    ++ [xorOnto (BitVec.ofNat 8 payload.length ^^^ code) payload, 0x55]

/-- The OK response without data (spec/43_response.md R192). -/
def plainOk : List Byte := [0xAA, 0x00, 0x00, 0x00, 0x55]

/-- `s` after it answered with these bytes and did nothing else. -/
def said (bytes : List Byte) (s : State) : State := { s with tx := s.tx ++ bytes }

/-- `s` after it answered ERROR, AA 00 FF FF 55, for cause `c` and did nothing else
(spec/43_response.md R193; the recorded cause is the model's event record, assumption log 4). -/
def saidError (c : Cause) (s : State) : State :=
  { s with tx := s.tx ++ [0xAA, 0x00, 0xFF, 0xFF, 0x55], events := s.events ++ [c] }

/-- The framer registers after a resynchronisation (spec/40_framer.md R101). -/
def huntingWith (buffer : Vector Byte 32) : Framer :=
  ⟨.hunt, 0, 0, buffer, 0, 0, 0, 0⟩

/-- `s` with the event record extended by a dropped frame's cause and the framer back in HUNT
(spec/40_framer.md R101). -/
def droppedFrame (c : Cause) (s : State) : State :=
  { s with events := s.events ++ [c], framer := huntingWith s.framer.fbuf }

/-- Time since `t`, modulo `2^32`, as a number (spec/42_motion.md R181). -/
def since (now t : Time) : Nat := (now - t).toNat

/-- Channel `i` is Moving and its interval has elapsed. -/
def eligible (i : Channel) (s : State) : Prop :=
  (s.getMove i).active = true ∧ (s.getMove i).interval.toNat ≤ since s.now (s.getMove i).last

/-- The distance still to go. -/
def gap (m : Move) : Int := (m.target.toNat : Int) - (m.current.toNat : Int)

/-- The motion steps of channel `i` at the given times, one after the other. -/
def movedAt (i : Channel) : List Time → State → State
  | [], s => s
  | n :: ns, s => movedAt i ns (motionStep i { s with now := n })

/-- At each of the given times the interval of channel `i` has elapsed since its last step. -/
def allDue (i : Channel) : List Time → State → Prop
  | [], _ => True
  | n :: ns, s =>
    (s.getMove i).interval.toNat ≤ since n (s.getMove i).last ∧ allDue i ns (motionStep i { s with now := n })

end Sys2Proof.Claims

open Sys2Proof.Claims

/-! ## Encoding -/

/-- Decoding the request frame of any command, with any operands, gives that command and leaves the bytes after
the frame (spec/30_encoding.md R70-R79). -/
def Obligations.DecodeEncodeRoundTrip : Prop :=
  ∀ (i : Instr) (rest : List Byte), decode (encode i ++ rest) = .ok (i, rest)

/-- A command has exactly one frame: bytes that decode to `i` are the bytes of `encode i`, then the rest. -/
def Obligations.DecodedBytesAreTheEncoding : Prop :=
  ∀ (bytes : List Byte) (i : Instr) (rest : List Byte),
    decode bytes = .ok (i, rest) → bytes = encode i ++ rest

/-- The frames of spec/30_encoding.md R85, spec/41_dispatcher.md and spec/95_test_vectors.md decode to the commands
they stand for. -/
def Obligations.SampleFramesDecode : Prop :=
  decode [0xAA, 0x00, 0x01, 0x01, 0x55] = .ok (.ping, [])
    ∧ decode [0xAA, 0x03, 0x02, 0x00, 0x05, 0xDC, 0xD8, 0x55] = .ok (.setServo 0 1500, [])
    ∧ decode [0xAA, 0x01, 0x03, 0x03, 0x01, 0x55] = .ok (.getServo 3, [])
    ∧ decode [0xAA, 0x00, 0x04, 0x04, 0x55] = .ok (.getAll, [])
    ∧ decode [0xAA, 0x06, 0x05, 0x00, 0x00, 0xB4, 0x09, 0x00, 0x0A, 0xB4, 0x55]
        = .ok (.moveStepped 0 180 9 10, [])
    ∧ decode [0xAA, 0x01, 0x06, 0xFF, 0xF8, 0x55] = .ok (.stopMove 0xFF, [])
    ∧ decode [0xAA, 0x00, 0x07, 0x07, 0x55] = .ok (.getMoveStatus, [])

/-- The XOR of frame offsets 1 to 3+L is zero exactly when the checksum byte is right
(spec/40_framer.md R100, its derived sentence). -/
def Obligations.ChecksumCancels : Prop :=
  ∀ (len command x : Byte) (payload : List Byte),
    xorOnto 0 ([len, command] ++ payload ++ [x]) = 0 ↔ x = checksum len command payload

/-! ## Conversions -/

/-- `deg_to_pw` (spec/41_dispatcher.md R136; whole degrees and floor division are the spec's decisions D11, D30). -/
def Obligations.DegreesToPulseWidth : Prop :=
  (∀ d : Half, (degToPw d).toNat = 500 + min d.toNat 180 * 2000 / 180)
    ∧ (∀ d : Half, 500 ≤ (degToPw d).toNat ∧ (degToPw d).toNat ≤ 2500)
    ∧ degToPw 0 = 500 ∧ degToPw 90 = 1500 ∧ degToPw 180 = 2500

/-- `step_to_pw` (spec/41_dispatcher.md R137; unit, floor and clamp are the spec's decision D12). -/
def Obligations.DegreesToStepSize : Prop :=
  ∀ b : Byte, (stepToPw b).toNat = max 1 (min b.toNat 180 * 2000 / 180)
    ∧ 1 ≤ (stepToPw b).toNat ∧ (stepToPw b).toNat ≤ 2000

/-- `pw_to_deg100` on every legal pulse width (spec/41_dispatcher.md R138; the formula is the spec's decision D17). -/
def Obligations.PulseWidthToCentidegrees : Prop :=
  ∀ pw : Half, 500 ≤ pw.toNat → pw.toNat ≤ 2500 → (pwToDeg100 pw).toNat = (pw.toNat - 500) * 9

/-! ## Commands: each with its request bytes, its whole next state on every operand, and its length error -/

/-- PING (spec/41_dispatcher.md R140; that the marker is an OPEN parameter is the spec's decision D6). -/
def Obligations.PingAnswersItsMarker : Prop :=
  decode [0xAA, 0x00, 0x01, 0x01, 0x55] = .ok (.ping, [])
    ∧ (∀ s : State, exec .ping s = .next (said (frameOf 0x00 s.params.pingPayload) s))
    ∧ (∀ (payload : List Byte) (s : State), payload.length ≠ 0 →
        dispatch ⟨0x01, payload⟩ s = .next (saidError .badLength s))

/-- SET_SERVO, every form (spec/41_dispatcher.md R141): accepted, it writes `pos[ch]`, which drives `servo_pw[ch]`,
and nothing else but the answer. The recorded cause is the model's own record (assumption log 4): where the channel and
the width are both bad the spec lets a model record either, and BadChannel follows its decision D23. -/
def Obligations.SetServoWritesOnlyItsChannel : Prop :=
  (∀ ch pwHi pwLo : Byte, ∃ pw : Half, pw.toNat = pwHi.toNat * 256 + pwLo.toNat
      ∧ decode [0xAA, 0x03, 0x02, ch, pwHi, pwLo, 0x03 ^^^ 0x02 ^^^ ch ^^^ pwHi ^^^ pwLo, 0x55]
        = .ok (.setServo ch pw, []))
    ∧ (∀ (i : Channel) (ch : Byte) (pw : Half) (s : State),
        ch.toNat = i.val → 500 ≤ pw.toNat → pw.toNat ≤ 2500 →
          ∃ t : State, exec (.setServo ch pw) s = .next t
            ∧ t = said plainOk (s.setPos i pw) ∧ t.servoPw i = pw)
    ∧ (∀ (ch : Byte) (pw : Half) (s : State), 4 ≤ ch.toNat →
        exec (.setServo ch pw) s = .next (saidError .badChannel s))
    ∧ (∀ (ch : Byte) (pw : Half) (s : State), ch.toNat < 4 → (pw.toNat < 500 ∨ 2500 < pw.toNat) →
        exec (.setServo ch pw) s = .next (saidError .badPulseWidth s))
    ∧ (∀ (payload : List Byte) (s : State), payload.length ≠ 3 →
        dispatch ⟨0x02, payload⟩ s = .next (saidError .badLength s))

/-- GET_SERVO, every form (spec/41_dispatcher.md R143): it reports the channel byte and `pos[ch]`, big-endian, and
writes no state. -/
def Obligations.GetServoReportsItsChannel : Prop :=
  (∀ ch : Byte, decode [0xAA, 0x01, 0x03, ch, 0x01 ^^^ 0x03 ^^^ ch, 0x55] = .ok (.getServo ch, []))
    ∧ (∀ (i : Channel) (ch : Byte) (s : State), ch.toNat = i.val →
        exec (.getServo ch) s = .next (said (frameOf 0x00 [ch, upper (s.getPos i), lower (s.getPos i)]) s))
    ∧ (∀ (ch : Byte) (s : State), 4 ≤ ch.toNat →
        exec (.getServo ch) s = .next (saidError .badChannel s))
    ∧ (∀ (payload : List Byte) (s : State), payload.length ≠ 1 →
        dispatch ⟨0x03, payload⟩ s = .next (saidError .badLength s))

/-- GET_ALL (spec/41_dispatcher.md R145): the four widths in channel order, each big-endian; no state is written. -/
def Obligations.GetAllReportsEveryChannel : Prop :=
  decode [0xAA, 0x00, 0x04, 0x04, 0x55] = .ok (.getAll, [])
    ∧ (∀ s : State, exec .getAll s = .next (said (frameOf 0x00
        [upper (s.getPos 0), lower (s.getPos 0), upper (s.getPos 1), lower (s.getPos 1),
          upper (s.getPos 2), lower (s.getPos 2), upper (s.getPos 3), lower (s.getPos 3)]) s))
    ∧ (∀ (payload : List Byte) (s : State), payload.length ≠ 0 →
        dispatch ⟨0x04, payload⟩ s = .next (saidError .badLength s))

/-- MOVE_STEPPED, every form (spec/41_dispatcher.md R147): all six fields of `mv[ch]`, nothing of the old move kept
(R148), no `pos` written (which fields can fail and `last <- now` are the spec's decisions D13, D14; the
conversions D11, D12). -/
def Obligations.MoveSteppedStartsAMove : Prop :=
  (∀ ch targetHi targetLo step delayHi delayLo : Byte, ∃ target delay : Half,
      target.toNat = targetHi.toNat * 256 + targetLo.toNat
      ∧ delay.toNat = delayHi.toNat * 256 + delayLo.toNat
      ∧ decode [0xAA, 0x06, 0x05, ch, targetHi, targetLo, step, delayHi, delayLo,
          0x06 ^^^ 0x05 ^^^ ch ^^^ targetHi ^^^ targetLo ^^^ step ^^^ delayHi ^^^ delayLo, 0x55]
        = .ok (.moveStepped ch target step delay, []))
    ∧ (∀ (i : Channel) (ch : Byte) (target : Half) (step : Byte) (delay : Half) (s : State),
        ch.toNat = i.val → ∃ m : Move,
          exec (.moveStepped ch target step delay) s = .next (said plainOk (s.setMove i m))
          ∧ m.active = true ∧ m.target.toNat = 500 + min target.toNat 180 * 2000 / 180
          ∧ m.current = s.getPos i ∧ m.step.toNat = max 1 (min step.toNat 180 * 2000 / 180)
          ∧ m.interval = delay ∧ m.last = s.now)
    ∧ (∀ (ch : Byte) (target : Half) (step : Byte) (delay : Half) (s : State), 4 ≤ ch.toNat →
        exec (.moveStepped ch target step delay) s = .next (saidError .badChannel s))
    ∧ (∀ (payload : List Byte) (s : State), payload.length ≠ 6 →
        dispatch ⟨0x05, payload⟩ s = .next (saidError .badLength s))

/-- STOP_MOVE, every form (spec/41_dispatcher.md R150): only `active` is cleared, of one channel or of all four
(that an Idle channel is accepted is the spec's decision D18). -/
def Obligations.StopMoveClearsOnlyActive : Prop :=
  (∀ ch : Byte, decode [0xAA, 0x01, 0x06, ch, 0x01 ^^^ 0x06 ^^^ ch, 0x55] = .ok (.stopMove ch, []))
    ∧ (∀ (i : Channel) (ch : Byte) (s : State), ch.toNat = i.val →
        exec (.stopMove ch) s
          = .next (said plainOk (s.setMove i { s.getMove i with active := false })))
    ∧ (∀ s : State, ∃ t : State, exec (.stopMove 0xFF) s = .next t
        ∧ t = said plainOk { s with mv := t.mv }
        ∧ ∀ i : Channel, t.getMove i = { s.getMove i with active := false })
    ∧ (∀ (ch : Byte) (s : State), 4 ≤ ch.toNat → ch.toNat ≤ 0xFE →
        exec (.stopMove ch) s = .next (saidError .badChannel s))
    ∧ (∀ (payload : List Byte) (s : State), payload.length ≠ 1 →
        dispatch ⟨0x06, payload⟩ s = .next (saidError .badLength s))

/-- GET_MOVE_STATUS (spec/41_dispatcher.md R153): four flags, then four positions in degrees x 100, exact for every
legal pulse width; no state is written (the layout is the spec's decision D17). -/
def Obligations.GetMoveStatusReportsFlagsAndPositions : Prop :=
  decode [0xAA, 0x00, 0x07, 0x07, 0x55] = .ok (.getMoveStatus, [])
    ∧ (∀ s : State, ∃ (flag : Channel → Byte) (degrees : Channel → Half),
        exec .getMoveStatus s = .next (said (frameOf 0x00
          [flag 0, flag 1, flag 2, flag 3,
            upper (degrees 0), lower (degrees 0), upper (degrees 1), lower (degrees 1),
            upper (degrees 2), lower (degrees 2), upper (degrees 3), lower (degrees 3)]) s)
        ∧ (∀ i : Channel, flag i = if (s.getMove i).active then 0x01 else 0x00)
        ∧ (∀ i : Channel, 500 ≤ (s.getPos i).toNat → (s.getPos i).toNat ≤ 2500 →
            (degrees i).toNat = ((s.getPos i).toNat - 500) * 9))
    ∧ (∀ (payload : List Byte) (s : State), payload.length ≠ 0 →
        dispatch ⟨0x07, payload⟩ s = .next (saidError .badLength s))

/-! ## The dispatcher -/

/-- UnknownCommand (spec/41_dispatcher.md R132). -/
def Obligations.UnknownCommandGetsOneError : Prop :=
  ∀ (c : Byte) (payload : List Byte) (s : State), (c = 0x00 ∨ 0x08 ≤ c.toNat) →
    dispatch ⟨c, payload⟩ s = .next (saidError .unknownCommand s)

/-- Payload-length mismatch (spec/41_dispatcher.md R133), with the lengths of spec/30_encoding.md R79. -/
def Obligations.WrongLengthGetsOneError : Prop :=
  ∀ (c : Byte) (n : Nat) (payload : List Byte) (s : State),
    (c.toNat, n) ∈ [(1, 0), (2, 3), (3, 1), (4, 0), (5, 6), (6, 1), (7, 0)] → payload.length ≠ n →
      dispatch ⟨c, payload⟩ s = .next (saidError .badLength s)

/-- A packet with a known code and its length runs the command of that code: the dispatcher goes on to exactly one
command (spec/41_dispatcher.md R130; the code assignment is the spec's decision D3). -/
def Obligations.RightLengthRunsItsCommand : Prop :=
  ∀ (c : Byte) (n : Nat) (payload : List Byte) (s : State),
    (c.toNat, n) ∈ [(1, 0), (2, 3), (3, 1), (4, 0), (5, 6), (6, 1), (7, 0)] → payload.length = n →
      ∃ i : Instr, i.code = c ∧ i.payload = payload ∧ dispatch ⟨c, payload⟩ s = exec i s

/-- A command is accepted with an OK frame exactly when its fields are in range; otherwise it is answered ERROR and
writes nothing (spec/20_memory.md R55, spec/60_exceptions.md R211, R213; the recorded cause is log 4). -/
def Obligations.AcceptedExactlyWhenWellFormed : Prop :=
  ∀ (i : Instr) (s : State),
    (i.wf = true → ∃ (t : State) (payload : List Byte), exec i s = .next t
        ∧ t.tx = s.tx ++ frameOf 0x00 payload ∧ t.events = s.events)
    ∧ (i.wf = false → ∃ c : Cause, (c = .badChannel ∨ c = .badPulseWidth)
        ∧ exec i s = .next (saidError c s))

/-- Every packet gets exactly one response frame, code 00 or FF, in the frame format (spec/41_dispatcher.md R134,
derived in the spec; the response format is its decision D4). The premise is the legal range of
`PING_PAYLOAD`. -/
def Obligations.EveryPacketGetsOneResponse : Prop :=
  ∀ (p : Packet) (s : State), s.params.wf = true →
    ∃ (t : State) (code : Byte) (payload : List Byte),
      dispatch p s = .next t ∧ (code = 0x00 ∨ code = 0xFF) ∧ payload.length ≤ 32
      ∧ t.tx = s.tx ++ frameOf code payload
      ∧ decodeFrame (frameOf code payload) = .ok (⟨code, payload⟩, [])

/-- What no command writes: the framer, the sampled time, the inputs still to come and the parameters; `tx` and the
event record only grow (spec/41_dispatcher.md R140-R153, "State written"). -/
def Obligations.CommandsLeaveFramerAndInputs : Prop :=
  ∀ (i : Instr) (s t : State), exec i s = .next t →
    t.framer = s.framer ∧ t.now = s.now ∧ t.inputs = s.inputs ∧ t.params = s.params
    ∧ s.tx <+: t.tx ∧ s.events <+: t.events

/-- Only SET_SERVO and the motion engine's commit write `pos[j]` (spec/10_state.md R23). -/
def Obligations.PositionStoreHasTwoWriters : Prop :=
  (∀ (i : Instr) (s t : State) (j : Channel), exec i s = .next t → t.getPos j ≠ s.getPos j →
      ∃ (ch : Byte) (pw : Half), i = .setServo ch pw ∧ ch.toNat = j.val ∧ t.getPos j = pw)
    ∧ (∀ (i : Channel) (s : State) (j : Channel), (motionStep i s).getPos j ≠ s.getPos j →
      j = i ∧ eligible i s ∧ (motionStep i s).getPos j = ((motionStep i s).getMove i).current)
    ∧ (∀ (b : Byte) (s : State), (frameByte b s).1.pos = s.pos)
    ∧ (∀ s : State, (timeoutCheck s).pos = s.pos)

/-- `mv[j].active` is set only by MOVE_STEPPED and cleared only by STOP_MOVE or by the snap to the target
(spec/10_state.md R30, spec/42_motion.md R177); a MOVE_STEPPED that leaves it set may change the other fields. -/
def Obligations.ActiveFlagWriters : Prop :=
  (∀ (i : Instr) (s t : State) (j : Channel), exec i s = .next t → t.getMove j ≠ s.getMove j →
      (∃ (ch : Byte) (target : Half) (step : Byte) (delay : Half),
          i = .moveStepped ch target step delay ∧ ch.toNat = j.val ∧ (t.getMove j).active = true)
      ∨ (∃ ch : Byte, i = .stopMove ch ∧ (ch = 0xFF ∨ ch.toNat = j.val)
          ∧ t.getMove j = { s.getMove j with active := false }))
    ∧ (∀ (i : Channel) (s : State) (j : Channel), (motionStep i s).getMove j ≠ s.getMove j →
      j = i ∧ eligible i s
      ∧ (((motionStep i s).getMove j).active = false →
          ((motionStep i s).getMove j).current = (s.getMove j).target))
    ∧ (∀ (b : Byte) (s : State), (frameByte b s).1.mv = s.mv)
    ∧ (∀ s : State, (timeoutCheck s).mv = s.mv)

/-! ## The framer -/

/-- State HUNT (spec/40_framer.md R102; the recorded cause is log 4). -/
def Obligations.HuntTakesOnlyTheStartByte : Prop :=
  ∀ (b : Byte) (s : State), s.framer.fstate = .hunt →
    (b = 0xAA → byteStep b s
        = .next { s with framer := { s.framer with fstate := .len, ft0 := s.now, fidx := 0, facc := 0 } })
    ∧ (b ≠ 0xAA → byteStep b s = .next { s with events := s.events ++ [.badStartMarker] })

/-- State LEN (spec/40_framer.md R103; that the failing byte is not looked at again is the spec's decision D8). -/
def Obligations.LengthByteIsBounded : Prop :=
  ∀ (b : Byte) (s : State), s.framer.fstate = .len →
    (32 < b.toNat → byteStep b s = .next (droppedFrame .lengthOverflow s))
    ∧ (b.toNat ≤ 32 → ∃ len : BitVec 6, len.toNat = b.toNat
        ∧ byteStep b s
          = .next { s with framer := { s.framer with flen := len, facc := b, fstate := .cmd } })

/-- State CMD (spec/40_framer.md R104). -/
def Obligations.CommandByteIsStored : Prop :=
  ∀ (b : Byte) (s : State), s.framer.fstate = .cmd →
    (s.framer.flen.toNat = 0 → byteStep b s = .next { s with framer :=
        { s.framer with fcmd := b, facc := s.framer.facc ^^^ b, fstate := .csum } })
    ∧ (s.framer.flen.toNat ≠ 0 → byteStep b s = .next { s with framer :=
        { s.framer with fcmd := b, facc := s.framer.facc ^^^ b, fstate := .pay } })

/-- State PAY, for `fidx` in 0..31 as the rule says (spec/40_framer.md R105); that no run leaves that range is
`StepKeepsInvariant`. -/
def Obligations.PayloadByteIsStored : Prop :=
  ∀ (b : Byte) (s : State), s.framer.fstate = .pay → s.framer.fidx.toNat ≤ 31 →
    ∃ f : Framer, byteStep b s = .next { s with framer := f }
      ∧ (∀ k : Fin 32, f.fbuf[k] = if k.val = s.framer.fidx.toNat then b else s.framer.fbuf[k])
      ∧ f.facc = s.framer.facc ^^^ b ∧ f.fidx.toNat = s.framer.fidx.toNat + 1
      ∧ (s.framer.fidx.toNat + 1 = s.framer.flen.toNat → f.fstate = .csum)
      ∧ (s.framer.fidx.toNat + 1 ≠ s.framer.flen.toNat → f.fstate = .pay)
      ∧ f.flen = s.framer.flen ∧ f.fcmd = s.framer.fcmd ∧ f.fcsum = s.framer.fcsum ∧ f.ft0 = s.framer.ft0

/-- States CSUM and END (spec/40_framer.md R106, R107; when the checksum is compared and that a wrong end marker
comes first are the spec's decisions D8, D9; the recorded cause is log 4). -/
def Obligations.EndByteDecidesTheFrame : Prop :=
  (∀ (b : Byte) (s : State), s.framer.fstate = .csum →
      byteStep b s = .next { s with framer := { s.framer with fcsum := b, fstate := .fin } })
    ∧ (∀ (b : Byte) (s : State), s.framer.fstate = .fin → b ≠ 0x55 →
      byteStep b s = .next (droppedFrame .badEndMarker s))
    ∧ (∀ s : State, s.framer.fstate = .fin → s.framer.fcsum ≠ s.framer.facc →
      byteStep 0x55 s = .next (droppedFrame .checksumMismatch s))
    ∧ (∀ s : State, s.framer.fstate = .fin → s.framer.fcsum = s.framer.facc →
      byteStep 0x55 s
        = dispatch ⟨s.framer.fcmd, s.framer.fbuf.toList.take s.framer.flen.toNat⟩
            { s with framer := huntingWith s.framer.fbuf })

/-- The bounded wait window (spec/40_framer.md R108; its start point, the strict comparison and its place in the tick
are the spec's decision D7). -/
def Obligations.ExpiredFrameIsDropped : Prop :=
  ∀ s : State,
    (s.framer.fstate ≠ .hunt → s.params.frameTimeout.toNat < since s.now s.framer.ft0 →
        timeoutCheck s = droppedFrame .frameTimeout s)
    ∧ (s.framer.fstate = .hunt → timeoutCheck s = s)
    ∧ (since s.now s.framer.ft0 ≤ s.params.frameTimeout.toNat → timeoutCheck s = s)

/-- A FramingError resynchronises and sends nothing; no `pos` or `mv` field changes (spec/60_exceptions.md R212). Every
byte that a framer rule drops, in any state, and the timeout. -/
def Obligations.FramingErrorIsSilent : Prop :=
  (∀ (b : Byte) (s t : State) (c : Cause), byteStep b s = .next t → c.errorClass = .framingError →
      t.events = s.events ++ [c] →
        t.framer.fstate = .hunt ∧ t.tx = s.tx ∧ t.pos = s.pos ∧ t.mv = s.mv)
    ∧ (∀ s : State, (timeoutCheck s).events = s.events ++ [.frameTimeout] →
        (timeoutCheck s).framer.fstate = .hunt ∧ (timeoutCheck s).tx = s.tx
        ∧ (timeoutCheck s).pos = s.pos ∧ (timeoutCheck s).mv = s.mv)

/-- Round trip through the byte-by-byte framer (spec/40_framer.md R113, derived in the spec): from HUNT, in any state,
the bytes of a frame dispatch exactly its packet, with the framer back in HUNT, and whatever follows is then
handled. -/
def Obligations.FramerDeliversEveryFrame : Prop :=
  ∀ (code : Byte) (payload rest : List Byte) (s : State), s.framer.fstate = .hunt → payload.length ≤ 32 →
    ∃ buffer : Vector Byte 32,
      buffer.toList = payload ++ s.framer.fbuf.toList.drop payload.length
      ∧ drain (frameOf code payload ++ rest) s
        = andThen (dispatch ⟨code, payload⟩
            { s with framer := huntingWith buffer }) (drain rest)

/-- A frame with one covered byte changed (the command, one payload byte, or the checksum) is dropped in silence as a
checksum mismatch (spec/40_framer.md R114, derived in the spec). -/
def Obligations.OneCorruptedByteIsCaught : Prop :=
  ∀ (code code' cs cs' : Byte) (payload payload' : List Byte) (s : State),
    s.framer.fstate = .hunt → payload.length ≤ 32 → payload'.length = payload.length →
    cs = xorOnto (BitVec.ofNat 8 payload.length ^^^ code) payload →
    ((code' ≠ code ∧ payload' = payload ∧ cs' = cs)
      ∨ (code' = code ∧ cs' = cs
        ∧ ∃ (before after : List Byte) (x y : Byte), x ≠ y
          ∧ payload = before ++ x :: after ∧ payload' = before ++ y :: after)
      ∨ (code' = code ∧ payload' = payload ∧ cs' ≠ cs)) →
    ∃ t : State,
      drain ([0xAA, BitVec.ofNat 8 payload.length, code'] ++ payload' ++ [cs', 0x55]) s = .next t
      ∧ t.framer.fstate = .hunt ∧ t.events = s.events ++ [.checksumMismatch]
      ∧ t.tx = s.tx ∧ t.pos = s.pos ∧ t.mv = s.mv

/-! ## Motion -/

/-- An Idle channel's step does nothing (spec/42_motion.md R183, derived in the spec). -/
def Obligations.IdleChannelIsHeld : Prop :=
  ∀ (i : Channel) (s : State), (s.getMove i).active = false → motionStep i s = s

/-- A Moving channel steps exactly when its interval has elapsed (spec/42_motion.md R171), and a step is a snap or an
advance (R173, R174); `last <- now` is R176, the spec's decision D15 (assumption log 12). -/
def Obligations.MovingChannelStepsWhenDue : Prop :=
  ∀ (i : Channel) (s : State) (m m' : Move),
    m = s.getMove i → m' = (motionStep i s).getMove i → m.active = true →
    (since s.now m.last < m.interval.toNat → motionStep i s = s)
    ∧ (m.interval.toNat ≤ since s.now m.last → m'.last = s.now
        ∧ ((m'.active = false ∧ m'.current = m.target)
          ∨ (m'.active = true ∧ (m'.current = m.current + m.step ∨ m'.current = m.current - m.step))))

/-- Snap and finish, with everything it leaves alone (spec/42_motion.md R173, committed as R175 says;
`last <- now` is R176, the spec's decision D15, assumption log 12). -/
def Obligations.SnapEndsTheMove : Prop :=
  ∀ (i : Channel) (s : State) (m : Move), m = s.getMove i → eligible i s →
    (gap m).natAbs ≤ m.step.toNat →
      motionStep i s
        = (s.setMove i { m with current := m.target, active := false, last := s.now }).setPos i m.target

/-- Advance (spec/42_motion.md R174; its range sentence is derived in the spec). The premise is R24's legal values of an
active move, which `StepKeepsInvariant` keeps. -/
def Obligations.AdvanceMovesByOneStep : Prop :=
  ∀ (i : Channel) (s : State) (m : Move), m = s.getMove i → eligible i s → m.ok = true →
    m.step.toNat < (gap m).natAbs →
      ∃ v : Half,
        motionStep i s = (s.setMove i { m with current := v, last := s.now }).setPos i v
        ∧ (0 < gap m → v.toNat = m.current.toNat + m.step.toNat
            ∧ m.current.toNat < v.toNat ∧ v.toNat < m.target.toNat)
        ∧ (gap m < 0 → v.toNat + m.step.toNat = m.current.toNat
            ∧ v.toNat < m.current.toNat ∧ m.target.toNat < v.toNat)

/-- Every step, advance or snap, commits the new `current` to the Position Store and so to the actuator output
(spec/42_motion.md R175). -/
def Obligations.EveryStepCommits : Prop :=
  ∀ (i : Channel) (s : State), eligible i s →
    (motionStep i s).getPos i = ((motionStep i s).getMove i).current
    ∧ (motionStep i s).servoPw i = ((motionStep i s).getMove i).current

/-- Channels are independent: the step of one writes only its own `mv` and `pos`, and two steps may be taken in either
order (spec/42_motion.md R182, derived in the spec; R170's order is its decision D25). -/
def Obligations.ChannelsAreIndependent : Prop :=
  ∀ (i j : Channel) (s : State), i ≠ j →
    (motionStep i s).getMove j = s.getMove j ∧ (motionStep i s).getPos j = s.getPos j
    ∧ motionStep i (motionStep j s) = motionStep j (motionStep i s)

/-- In the motion phase every channel takes its own one step, from the state before the phase, and nothing but `mv`
and `pos` is written (spec/42_motion.md R170, R178). -/
def Obligations.MotionPhaseIsOneStepPerChannel : Prop :=
  ∀ s : State,
    (∀ i : Channel, (motionPhase s).getMove i = (motionStep i s).getMove i
      ∧ (motionPhase s).getPos i = (motionStep i s).getPos i)
    ∧ motionPhase s = { s with mv := (motionPhase s).mv, pos := (motionPhase s).pos }

/-- Progress and no overshoot (spec/42_motion.md R179, derived in the spec, with spec/90_conflicts.md C4): a legal move
ends at its `max(1, ceil(d/step))`-th eligible tick, moves by exactly one step toward the target at each tick before
that, and never leaves the stretch between its start and its target. -/
def Obligations.MoveEndsAfterCeilTicks : Prop :=
  ∀ (i : Channel) (s : State) (times : List Time) (m m' : Move) (v : Half),
    m = s.getMove i → m.active = true → m.ok = true → allDue i times s →
    m' = (movedAt i times s).getMove i → v = (movedAt i times s).getPos i →
    let d := (gap m).natAbs
    let n := max 1 ((d + m.step.toNat - 1) / m.step.toNat)
    (times.length < n → m'.active = true
        ∧ (m'.current.toNat : Int) = m.current.toNat + (gap m).sign * (times.length * m.step.toNat : Nat)
        ∧ times.length * m.step.toNat ≤ d
        ∧ (times ≠ [] → v = m'.current))
    ∧ (times.length = n → m'.active = false ∧ m'.current = m.target ∧ v = m.target)

/-- A SET_SERVO value on a moving channel lasts until the move's next step, which does not depend on it
(spec/41_dispatcher.md R142, spec/70_reset_and_hazards.md R247; the spec's decision D16). -/
def Obligations.NextStepOverwritesSetServo : Prop :=
  ∀ (i : Channel) (pw : Half) (s : State), eligible i s →
    motionStep i (s.setPos i pw) = motionStep i s ∧ (s.setPos i pw).getMove i = s.getMove i

/-! ## The tick -/

/-- A step runs the decoded instruction: where the next tick brings the frame of `i` (and perhaps more bytes) and no
frame is open, the step is the motion phase at that time, then `exec i` with the framer resynchronised, then the
bytes after it (spec/44_tick.md R200-R202; the tick form is the spec's decision D1). -/
def Obligations.StepRunsTheDecodedCommand : Prop :=
  ∀ (s : State) (now : Time) (bytes rest : List Byte) (later : List Input) (i : Instr),
    s.inputs = .tick now bytes :: later → s.framer.fstate = .hunt → decode bytes = .ok (i, rest) →
    ∃ buffer : Vector Byte 32, step s = andThen (exec i
      { motionPhase { s with now := now, tx := [], events := [], inputs := later } with
        framer := huntingWith buffer })
      (drain rest)

/-- A word of spec/opcode_table.json placed with `withFetchWord` is run by the very next step, after the motion phase at
the present time (the table-word layout and the placing are the model's choices, assumption logs 5 and 6). -/
def Obligations.PlacedWordRunsNext : Prop :=
  ∀ (s : State) (nbits w : Nat) (i : Instr), decodeTableWord nbits w = some i →
    ∃ buffer : Vector Byte 32, step (s.withFetchWord nbits w) = exec i
      { motionPhase { s with tx := [], events := [] } with framer := huntingWith buffer }

/-- Recovery by a pause (spec/70_reset_and_hazards.md R250, derived in the spec): whatever frame is open, a tick later
than the window drops it and then runs the new frame's command. -/
def Obligations.PauseRecoversTheFramer : Prop :=
  ∀ (s : State) (now : Time) (later : List Input) (i : Instr),
    s.inputs = .tick now (encode i) :: later → s.framer.fstate ≠ .hunt →
    s.params.frameTimeout.toNat < since now s.framer.ft0 →
    ∃ buffer : Vector Byte 32, step s = exec i
      { motionPhase { s with now := now, tx := [], events := [], inputs := later } with
        framer := huntingWith buffer, events := [.frameTimeout] }

/-- A partial frame is kept from tick to tick while its window is open: a tick with no bytes leaves every framer
register as it is (spec/40_framer.md R109, R108; decision D7). -/
def Obligations.OpenFrameSurvivesTheTick : Prop :=
  ∀ (s t : State) (now : Time) (later : List Input),
    s.inputs = .tick now [] :: later → step s = .next t →
    (s.framer.fstate = .hunt ∨ since now s.framer.ft0 ≤ s.params.frameTimeout.toNat) →
    t.framer = s.framer ∧ t.tx = [] ∧ t.inputs = later

/-- Bytes are handled one at a time, in order: a tick's bytes may be split anywhere (spec/44_tick.md R202,
spec/41_dispatcher.md R155; decision D22). -/
def Obligations.BytesAreHandledInOrder : Prop :=
  ∀ (xs ys : List Byte) (s : State), drain (xs ++ ys) s = andThen (drain xs s) (drain ys)

/-- A stop is immediate: a GET_MOVE_STATUS after STOP_MOVE FF in the same tick reports every channel Idle
(spec/70_reset_and_hazards.md R246, derived in the spec). -/
def Obligations.StopIsSeenInTheSameTick : Prop :=
  ∀ s : State, s.framer.fstate = .hunt →
    ∃ (t : State) (positions : List Byte), positions.length = 8
      ∧ drain (encode (.stopMove 0xFF) ++ encode .getMoveStatus) s = .next t
      ∧ t.tx = s.tx ++ plainOk ++ frameOf 0x00 ([0x00, 0x00, 0x00, 0x00] ++ positions)
      ∧ t.pos = s.pos ∧ ∀ i : Channel, (t.getMove i).active = false

/-- A move starts one tick late: a GET_SERVO after MOVE_STEPPED in the same tick reports the old position
(spec/70_reset_and_hazards.md R245, derived in the spec). -/
def Obligations.MoveIsNotSeenInTheSameTick : Prop :=
  ∀ (s : State) (i : Channel) (ch : Byte) (target : Half) (stepDeg : Byte) (delay : Half),
    s.framer.fstate = .hunt → ch.toNat = i.val →
    ∃ t : State,
      drain (encode (.moveStepped ch target stepDeg delay) ++ encode (.getServo ch)) s = .next t
      ∧ t.tx = s.tx ++ plainOk ++ frameOf 0x00 [ch, upper (s.getPos i), lower (s.getPos i)]
      ∧ t.pos = s.pos ∧ (t.getMove i).active = true

/-! ## The whole machine -/

/-- No input gets a fault, stuck or refused outcome: every state has a next state, and `step` is
a function, so exactly one (spec/60_exceptions.md
R214). -/
def Obligations.EveryStepGoesOn : Prop :=
  ∀ s : State, ∃ t : State, step s = .next t

/-- What reset leaves (spec/10_state.md R34, spec/70_reset_and_hazards.md R240; all but Idle is the spec's decision D19):
as a reset event in any state, and as the machine's start. The empty event record and the time 0 are the model's
(logs 3, 4). -/
def Obligations.ResetGivesTheResetValues : Prop :=
  (∀ (s : State) (later : List Input), s.inputs = .reset :: later →
      ∃ t : State, step s = .next t ∧ t.tx = [] ∧ t.inputs = later ∧ t.params = s.params
        ∧ t.framer = State.reset.framer
        ∧ ∀ i : Channel, t.getPos i = s.params.pwInit ∧ t.servoPw i = s.params.pwInit
          ∧ t.getMove i = ⟨false, 0, 0, 0, 0, 0⟩)
    ∧ (∀ i : Channel, State.reset.getPos i = State.reset.params.pwInit
        ∧ State.reset.getMove i = ⟨false, 0, 0, 0, 0, 0⟩)
    ∧ State.reset.framer = ⟨.hunt, 0, 0, Vector.replicate 32 0, 0, 0, 0, 0⟩ ∧ State.reset.tx = []

/-- With no input event pending the block holds its state and emits nothing (spec/60_exceptions.md R226; the form of a
step without an event is the model's choice, assumption log 2). -/
def Obligations.NoInputHoldsTheState : Prop :=
  ∀ s : State, s.inputs = [] → step s = .next { s with tx := [], events := [] }

/-- The machine starts inside the invariant, whatever the device's parameters are (spec/00_scope.md R7,
spec/10_state.md R22, R24, R28). -/
def Obligations.ResetMeetsInvariant : Prop := State.reset.Inv

/-- Every step keeps the invariant: legal pulse widths (spec/10_state.md R22), legal moves (R24), the framer's register
invariants (R28, derived in the spec) and the legal parameters (spec/00_scope.md R7). -/
def Obligations.StepKeepsInvariant : Prop :=
  ∀ s t : State, s.Inv → step s = .next t → t.Inv

/-- No step changes the parameters (spec/00_scope.md R7; that they stand in State is the model's choice, log 1). -/
def Obligations.StepKeepsParameters : Prop :=
  ∀ s t : State, step s = .next t → t.params = s.params

/-- Whatever the host sends, for however long, the block runs on and never drives an actuator outside
[500, 2500] (spec/10_state.md R22, R33; spec/44_tick.md R206; spec/60_exceptions.md R214). -/
def Obligations.ActuatorsStayInRange : Prop :=
  ∀ (k : Nat) (s : State), s.Inv →
    (observe k s).length = k
    ∧ ∀ seen ∈ observe k s, ∀ i : Channel, 500 ≤ seen.2[i].toNat ∧ seen.2[i].toNat ≤ 2500

/-- Under the clock requirement of spec/70_reset_and_hazards.md R254 (derived in the spec, decision D26), timestamps keep
their true times from tick to tick, and `elapsed` is the true elapsed time wherever the tick reads it. -/
def Obligations.ElapsedIsTrueTime : Prop :=
  ∀ (T g : Nat) (s t : State) (rx : List Byte) (later : List Input),
    ClockOk T s → g + max 65535 s.params.frameTimeout.toNat < 2 ^ 32 →
    s.inputs = .tick (stampOf (T + g)) rx :: later → step s = .next t →
    ClockOk (T + g) t
    ∧ (∀ i : Channel, (s.getMove i).active = true → ∃ L, L ≤ T ∧ (s.getMove i).last = stampOf L
        ∧ since (stampOf (T + g)) (s.getMove i).last = T + g - L)
    ∧ (s.framer.fstate ≠ .hunt → ∃ L, L ≤ T ∧ s.framer.ft0 = stampOf L
        ∧ since (stampOf (T + g)) s.framer.ft0 = T + g - L)
end

