-- ==== Sys2Proof/Laws/Bytes.lean ====
section
/-! SUPPORT. The byte-order helpers and the checks of the model as facts about numbers. -/

namespace Sys2Proof

/-! ### Byte order (spec/00_scope.md R9, spec/30_encoding.md R76) -/

theorem hi8_toNat (v : Half) : (hi8 v).toNat = v.toNat / 256 := by
  simp [hi8, BitVec.extractLsb'_toNat, Nat.shiftRight_eq_div_pow]
  omega

theorem lo8_toNat (v : Half) : (lo8 v).toNat = v.toNat % 256 := by
  simp [lo8]

theorem u16_toNat (hi lo : Byte) : (u16 hi lo).toNat = hi.toNat * 256 + lo.toNat := by
  unfold u16
  rw [BitVec.toNat_append, ← Nat.shiftLeft_add_eq_or_of_lt lo.isLt, Nat.shiftLeft_eq]

@[simp] theorem hi8_u16 (hi lo : Byte) : hi8 (u16 hi lo) = hi := by
  apply BitVec.eq_of_toNat_eq
  rw [hi8_toNat, u16_toNat]
  omega

@[simp] theorem lo8_u16 (hi lo : Byte) : lo8 (u16 hi lo) = lo := by
  apply BitVec.eq_of_toNat_eq
  rw [lo8_toNat, u16_toNat]
  omega

@[simp] theorem u16_hi8_lo8 (v : Half) : u16 (hi8 v) (lo8 v) = v := by
  apply BitVec.eq_of_toNat_eq
  rw [u16_toNat, lo8_toNat, hi8_toNat]
  omega

theorem lengthByte_toNat {payload : List Byte} (h : payload.length ≤ 255) :
    (lengthByte payload).toNat = payload.length := by
  simp [lengthByte]
  omega

/-- A code that has a required length is one of the seven commands' and no other code has one. -/
theorem reqLen_code (i : Instr) : reqLen i.code = some i.payload.length := by
  cases i <;> rfl

/-! ### Checks -/

theorem Config.Params.wf_iff (p : Config.Params) :
    p.wf = true ↔ p.frameTimeout.toNat < 2 ^ 31 ∧ p.pingPayload.length ≤ 32
      ∧ 500 ≤ p.pwInit.toNat ∧ p.pwInit.toNat ≤ 2500 := by
  simp only [Config.Params.wf, Bool.and_eq_true, decide_eq_true_eq, and_assoc]
  exact Iff.rfl

theorem channelInRange_iff (ch : Byte) : channelInRange ch = true ↔ ch.toNat < 4 := by
  simp only [channelInRange, decide_eq_true_eq]
  exact Iff.rfl

namespace Machine

theorem pulseInRange_iff (pw : Half) : pulseInRange pw = true ↔ 500 ≤ pw.toNat ∧ pw.toNat ≤ 2500 := by
  simp only [pulseInRange, Bool.and_eq_true, decide_eq_true_eq]
  exact Iff.rfl

theorem legalPulse_iff (v : Half) : legalPulse v = true ↔ 500 ≤ v.toNat ∧ v.toNat ≤ 2500 := by
  simp only [legalPulse, Bool.and_eq_true, decide_eq_true_eq]

theorem due_iff (now : Time) (m : Move) :
    due now m = true ↔ m.interval.toNat ≤ (elapsed now m.last).toNat := by
  simp only [due, decide_eq_true_eq]

theorem Move.ok_iff (m : Move) :
    m.ok = true ↔ (m.active = true → legalPulse m.target = true ∧ legalPulse m.current = true
      ∧ 1 ≤ m.step.toNat ∧ m.step.toNat ≤ 2000) := by
  unfold Move.ok
  cases m.active <;> simp [and_assoc]

theorem degToSpan_le (d : Nat) : degToSpan d ≤ 2000 := by
  simp only [degToSpan, Config.degMax, Config.pwMax, Config.pwMin]
  omega

/-! ### The framer's invariant, state by state (spec/10_state.md R28) -/

theorem Framer.ok_hunt {f : Framer} (h : f.fstate = .hunt) : f.ok = true := by
  simp [Framer.ok, h]

theorem Framer.ok_len {f : Framer} (h : f.fstate = .len) : f.ok = true ↔ f.fidx = 0 ∧ f.facc = 0 := by
  simp [Framer.ok, h]

theorem Framer.ok_cmd {f : Framer} (h : f.fstate = .cmd) :
    f.ok = true ↔ f.flen.toNat ≤ 32 ∧ f.fidx = 0 ∧ f.facc = f.flen.setWidth 8 := by
  simp [Framer.ok, h, and_assoc]

theorem Framer.ok_pay {f : Framer} (h : f.fstate = .pay) :
    f.ok = true ↔ f.flen.toNat ≤ 32 ∧ f.fidx.toNat < f.flen.toNat
      ∧ f.facc = f.received.foldl (· ^^^ ·) (f.flen.setWidth 8 ^^^ f.fcmd) := by
  simp [Framer.ok, h, and_assoc]

theorem Framer.ok_csum {f : Framer} (h : f.fstate = .csum) :
    f.ok = true ↔ f.flen.toNat ≤ 32 ∧ f.fidx = f.flen
      ∧ f.facc = f.received.foldl (· ^^^ ·) (f.flen.setWidth 8 ^^^ f.fcmd) := by
  simp [Framer.ok, h, and_assoc]

theorem Framer.ok_fin {f : Framer} (h : f.fstate = .fin) :
    f.ok = true ↔ f.flen.toNat ≤ 32 ∧ f.fidx = f.flen
      ∧ f.facc = f.received.foldl (· ^^^ ·) (f.flen.setWidth 8 ^^^ f.fcmd) := by
  simp [Framer.ok, h, and_assoc]

end Machine

end Sys2Proof
end

