-- ==== Sys2Proof/Laws/State.lean ====
section
/-! SUPPORT. One lemma per field per update of the state, each true by rfl, and the reads of `pos` and `mv` after
a write. No later proof unfolds a record update. -/

namespace Sys2Proof.Machine

/-! ### setPos -/

@[simp] theorem State.setPos_pos (s : State) (i : Channel) (v : Half) : (s.setPos i v).pos = s.pos.set i v := rfl
@[simp] theorem State.setPos_mv (s : State) (i : Channel) (v : Half) : (s.setPos i v).mv = s.mv := rfl
@[simp] theorem State.setPos_framer (s : State) (i : Channel) (v : Half) : (s.setPos i v).framer = s.framer := rfl
@[simp] theorem State.setPos_now (s : State) (i : Channel) (v : Half) : (s.setPos i v).now = s.now := rfl
@[simp] theorem State.setPos_tx (s : State) (i : Channel) (v : Half) : (s.setPos i v).tx = s.tx := rfl
@[simp] theorem State.setPos_events (s : State) (i : Channel) (v : Half) : (s.setPos i v).events = s.events := rfl
@[simp] theorem State.setPos_inputs (s : State) (i : Channel) (v : Half) : (s.setPos i v).inputs = s.inputs := rfl
@[simp] theorem State.setPos_params (s : State) (i : Channel) (v : Half) : (s.setPos i v).params = s.params := rfl

/-! ### setMove -/

@[simp] theorem State.setMove_pos (s : State) (i : Channel) (m : Move) : (s.setMove i m).pos = s.pos := rfl
@[simp] theorem State.setMove_mv (s : State) (i : Channel) (m : Move) : (s.setMove i m).mv = s.mv.set i m := rfl
@[simp] theorem State.setMove_framer (s : State) (i : Channel) (m : Move) : (s.setMove i m).framer = s.framer := rfl
@[simp] theorem State.setMove_now (s : State) (i : Channel) (m : Move) : (s.setMove i m).now = s.now := rfl
@[simp] theorem State.setMove_tx (s : State) (i : Channel) (m : Move) : (s.setMove i m).tx = s.tx := rfl
@[simp] theorem State.setMove_events (s : State) (i : Channel) (m : Move) : (s.setMove i m).events = s.events := rfl
@[simp] theorem State.setMove_inputs (s : State) (i : Channel) (m : Move) : (s.setMove i m).inputs = s.inputs := rfl
@[simp] theorem State.setMove_params (s : State) (i : Channel) (m : Move) : (s.setMove i m).params = s.params := rfl

/-! ### setFramer -/

@[simp] theorem State.setFramer_pos (s : State) (f : Framer) : (s.setFramer f).pos = s.pos := rfl
@[simp] theorem State.setFramer_mv (s : State) (f : Framer) : (s.setFramer f).mv = s.mv := rfl
@[simp] theorem State.setFramer_framer (s : State) (f : Framer) : (s.setFramer f).framer = f := rfl
@[simp] theorem State.setFramer_now (s : State) (f : Framer) : (s.setFramer f).now = s.now := rfl
@[simp] theorem State.setFramer_tx (s : State) (f : Framer) : (s.setFramer f).tx = s.tx := rfl
@[simp] theorem State.setFramer_events (s : State) (f : Framer) : (s.setFramer f).events = s.events := rfl
@[simp] theorem State.setFramer_inputs (s : State) (f : Framer) : (s.setFramer f).inputs = s.inputs := rfl
@[simp] theorem State.setFramer_params (s : State) (f : Framer) : (s.setFramer f).params = s.params := rfl

/-! ### emit -/

@[simp] theorem State.emit_pos (s : State) (bytes : List Byte) : (s.emit bytes).pos = s.pos := rfl
@[simp] theorem State.emit_mv (s : State) (bytes : List Byte) : (s.emit bytes).mv = s.mv := rfl
@[simp] theorem State.emit_framer (s : State) (bytes : List Byte) : (s.emit bytes).framer = s.framer := rfl
@[simp] theorem State.emit_now (s : State) (bytes : List Byte) : (s.emit bytes).now = s.now := rfl
@[simp] theorem State.emit_tx (s : State) (bytes : List Byte) : (s.emit bytes).tx = s.tx ++ bytes := rfl
@[simp] theorem State.emit_events (s : State) (bytes : List Byte) : (s.emit bytes).events = s.events := rfl
@[simp] theorem State.emit_inputs (s : State) (bytes : List Byte) : (s.emit bytes).inputs = s.inputs := rfl
@[simp] theorem State.emit_params (s : State) (bytes : List Byte) : (s.emit bytes).params = s.params := rfl

/-! ### record -/

@[simp] theorem State.record_pos (s : State) (c : Cause) : (s.record c).pos = s.pos := rfl
@[simp] theorem State.record_mv (s : State) (c : Cause) : (s.record c).mv = s.mv := rfl
@[simp] theorem State.record_framer (s : State) (c : Cause) : (s.record c).framer = s.framer := rfl
@[simp] theorem State.record_now (s : State) (c : Cause) : (s.record c).now = s.now := rfl
@[simp] theorem State.record_tx (s : State) (c : Cause) : (s.record c).tx = s.tx := rfl
@[simp] theorem State.record_events (s : State) (c : Cause) : (s.record c).events = s.events ++ [c] := rfl
@[simp] theorem State.record_inputs (s : State) (c : Cause) : (s.record c).inputs = s.inputs := rfl
@[simp] theorem State.record_params (s : State) (c : Cause) : (s.record c).params = s.params := rfl

/-! ### replyOk -/

@[simp] theorem replyOk_pos (p : List Byte) (s : State) : (replyOk p s).pos = s.pos := rfl
@[simp] theorem replyOk_mv (p : List Byte) (s : State) : (replyOk p s).mv = s.mv := rfl
@[simp] theorem replyOk_framer (p : List Byte) (s : State) : (replyOk p s).framer = s.framer := rfl
@[simp] theorem replyOk_now (p : List Byte) (s : State) : (replyOk p s).now = s.now := rfl
@[simp] theorem replyOk_tx (p : List Byte) (s : State) : (replyOk p s).tx = s.tx ++ frame Config.respOk p := rfl
@[simp] theorem replyOk_events (p : List Byte) (s : State) : (replyOk p s).events = s.events := rfl
@[simp] theorem replyOk_inputs (p : List Byte) (s : State) : (replyOk p s).inputs = s.inputs := rfl
@[simp] theorem replyOk_params (p : List Byte) (s : State) : (replyOk p s).params = s.params := rfl

/-! ### replyError -/

@[simp] theorem replyError_pos (c : Cause) (s : State) : (replyError c s).pos = s.pos := rfl
@[simp] theorem replyError_mv (c : Cause) (s : State) : (replyError c s).mv = s.mv := rfl
@[simp] theorem replyError_framer (c : Cause) (s : State) : (replyError c s).framer = s.framer := rfl
@[simp] theorem replyError_now (c : Cause) (s : State) : (replyError c s).now = s.now := rfl
@[simp] theorem replyError_tx (c : Cause) (s : State) : (replyError c s).tx = s.tx ++ frame Config.respError [] := rfl
@[simp] theorem replyError_events (c : Cause) (s : State) : (replyError c s).events = s.events ++ [c] := rfl
@[simp] theorem replyError_inputs (c : Cause) (s : State) : (replyError c s).inputs = s.inputs := rfl
@[simp] theorem replyError_params (c : Cause) (s : State) : (replyError c s).params = s.params := rfl

/-! ### dropFrame -/

@[simp] theorem dropFrame_pos (c : Cause) (s : State) : (dropFrame c s).pos = s.pos := rfl
@[simp] theorem dropFrame_mv (c : Cause) (s : State) : (dropFrame c s).mv = s.mv := rfl
@[simp] theorem dropFrame_framer (c : Cause) (s : State) : (dropFrame c s).framer = s.framer.resync := rfl
@[simp] theorem dropFrame_now (c : Cause) (s : State) : (dropFrame c s).now = s.now := rfl
@[simp] theorem dropFrame_tx (c : Cause) (s : State) : (dropFrame c s).tx = s.tx := rfl
@[simp] theorem dropFrame_events (c : Cause) (s : State) : (dropFrame c s).events = s.events ++ [c] := rfl
@[simp] theorem dropFrame_inputs (c : Cause) (s : State) : (dropFrame c s).inputs = s.inputs := rfl
@[simp] theorem dropFrame_params (c : Cause) (s : State) : (dropFrame c s).params = s.params := rfl

/-! ### beginTick -/

@[simp] theorem beginTick_pos (now : Time) (s : State) : (beginTick now s).pos = s.pos := rfl
@[simp] theorem beginTick_mv (now : Time) (s : State) : (beginTick now s).mv = s.mv := rfl
@[simp] theorem beginTick_framer (now : Time) (s : State) : (beginTick now s).framer = s.framer := rfl
@[simp] theorem beginTick_now (now : Time) (s : State) : (beginTick now s).now = now := rfl
@[simp] theorem beginTick_tx (now : Time) (s : State) : (beginTick now s).tx = [] := rfl
@[simp] theorem beginTick_events (now : Time) (s : State) : (beginTick now s).events = [] := rfl
@[simp] theorem beginTick_inputs (now : Time) (s : State) : (beginTick now s).inputs = s.inputs := rfl
@[simp] theorem beginTick_params (now : Time) (s : State) : (beginTick now s).params = s.params := rfl

/-! ### Channels read after a write -/

@[simp] theorem State.getPos_setPos_same (s : State) (i : Channel) (v : Half) :
    (s.setPos i v).getPos i = v := by
  simp [State.getPos, State.setPos]

@[simp] theorem State.getPos_setPos_ne (s : State) {i j : Channel} (v : Half) (h : j ≠ i) :
    (s.setPos i v).getPos j = s.getPos j := by
  have h' : i.val ≠ j.val := fun e => h (Fin.ext e.symm)
  simp [State.getPos, State.setPos, h']

@[simp] theorem State.getMove_setMove_same (s : State) (i : Channel) (m : Move) :
    (s.setMove i m).getMove i = m := by
  simp [State.getMove, State.setMove]

@[simp] theorem State.getMove_setMove_ne (s : State) {i j : Channel} (m : Move) (h : j ≠ i) :
    (s.setMove i m).getMove j = s.getMove j := by
  have h' : i.val ≠ j.val := fun e => h (Fin.ext e.symm)
  simp [State.getMove, State.setMove, h']

@[simp] theorem State.getMove_setPos (s : State) (i : Channel) (v : Half) (j : Channel) : (s.setPos i v).getMove j = s.getMove j := rfl
@[simp] theorem State.getPos_setMove (s : State) (i : Channel) (m : Move) (j : Channel) : (s.setMove i m).getPos j = s.getPos j := rfl
@[simp] theorem State.getPos_setFramer (s : State) (f : Framer) (j : Channel) : (s.setFramer f).getPos j = s.getPos j := rfl
@[simp] theorem State.getMove_setFramer (s : State) (f : Framer) (j : Channel) : (s.setFramer f).getMove j = s.getMove j := rfl
@[simp] theorem State.getPos_emit (s : State) (bytes : List Byte) (j : Channel) : (s.emit bytes).getPos j = s.getPos j := rfl
@[simp] theorem State.getMove_emit (s : State) (bytes : List Byte) (j : Channel) : (s.emit bytes).getMove j = s.getMove j := rfl
@[simp] theorem State.getPos_record (s : State) (c : Cause) (j : Channel) : (s.record c).getPos j = s.getPos j := rfl
@[simp] theorem State.getMove_record (s : State) (c : Cause) (j : Channel) : (s.record c).getMove j = s.getMove j := rfl
@[simp] theorem State.getPos_replyOk (p : List Byte) (s : State) (j : Channel) : (replyOk p s).getPos j = s.getPos j := rfl
@[simp] theorem State.getMove_replyOk (p : List Byte) (s : State) (j : Channel) : (replyOk p s).getMove j = s.getMove j := rfl
@[simp] theorem State.getPos_replyError (c : Cause) (s : State) (j : Channel) : (replyError c s).getPos j = s.getPos j := rfl
@[simp] theorem State.getMove_replyError (c : Cause) (s : State) (j : Channel) : (replyError c s).getMove j = s.getMove j := rfl
@[simp] theorem State.getPos_dropFrame (c : Cause) (s : State) (j : Channel) : (dropFrame c s).getPos j = s.getPos j := rfl
@[simp] theorem State.getMove_dropFrame (c : Cause) (s : State) (j : Channel) : (dropFrame c s).getMove j = s.getMove j := rfl
@[simp] theorem State.getPos_beginTick (now : Time) (s : State) (j : Channel) : (beginTick now s).getPos j = s.getPos j := rfl
@[simp] theorem State.getMove_beginTick (now : Time) (s : State) (j : Channel) : (beginTick now s).getMove j = s.getMove j := rfl

/-- Two states are equal when every channel and every other field agree. -/
theorem State.ext_channels {s t : State} (hpos : ∀ i, s.getPos i = t.getPos i)
    (hmv : ∀ i, s.getMove i = t.getMove i) (hframer : s.framer = t.framer) (hnow : s.now = t.now)
    (htx : s.tx = t.tx) (hevents : s.events = t.events) (hinputs : s.inputs = t.inputs)
    (hparams : s.params = t.params) : s = t := by
  obtain ⟨p, m, f, n, x, e, ins, pa⟩ := s
  obtain ⟨p', m', f', n', x', e', ins', pa'⟩ := t
  have hp : p = p' := Vector.ext fun i hi => hpos ⟨i, hi⟩
  have hm : m = m' := Vector.ext fun i hi => hmv ⟨i, hi⟩
  simp only at hframer hnow htx hevents hinputs hparams
  subst hp hm hframer hnow htx hevents hinputs hparams
  rfl

/-! ### Reset -/

@[simp] theorem State.resetWith_getPos (p : Config.Params) (ins : List Input) (i : Channel) :
    (State.resetWith p ins).getPos i = p.pwInit := by
  simp [State.getPos, State.resetWith]

@[simp] theorem State.resetWith_getMove (p : Config.Params) (ins : List Input) (i : Channel) :
    (State.resetWith p ins).getMove i = Move.reset := by
  simp [State.getMove, State.resetWith]

end Sys2Proof.Machine
end

