-- ==== Sys2Proof/Laws/Ops.lean ====
section
/-! SUPPORT. One lemma for each shared operation, saying once what it can do: the sequencing of outcomes, the
channel check, the flag operations, the motion step, one framer byte, the dispatcher. -/

namespace Sys2Proof.Machine

/-! ### Sequencing -/

@[simp] theorem andThen_next {σ τ : Type} (s : σ) (k : σ → Result τ) : andThen (.next s) k = k s := rfl

theorem andThen_eq_next {σ τ : Type} {r : Result σ} {k : σ → Result τ} {t : τ} (h : andThen r k = .next t) :
    ∃ s, r = .next s ∧ k s = .next t := by
  cases r with
  | next s => exact ⟨s, rfl, h⟩
  | fault e => cases e
  | refused e => cases h

theorem drain_cons (b : Byte) (bs : List Byte) (s : State) :
    drain (b :: bs) s = andThen (byteStep b s) (drain bs) := rfl

@[simp] theorem drain_nil (s : State) : drain [] s = .next s := rfl

/-! ### The channel check -/

theorem channelOf_eq_some {ch : Byte} {i : Channel} : channelOf ch = some i ↔ ch.toNat = i.val := by
  unfold channelOf
  split
  · simp [Fin.ext_iff]
  · next h =>
    constructor
    · intro hn
      cases hn
    · intro he
      exact absurd (he.trans_lt i.isLt) h

theorem channelOf_eq_none {ch : Byte} : channelOf ch = none ↔ 4 ≤ ch.toNat := by
  unfold channelOf
  split <;> simp <;> omega

/-! ### Flags -/

theorem clearActive_getMove (i j : Channel) (s : State) :
    (clearActive i s).getMove j = if j = i then { s.getMove j with active := false } else s.getMove j := by
  by_cases h : j = i
  · subst h; simp [clearActive]
  · simp [clearActive, h]

/-- STOP_MOVE's broadcast clears every `active` and keeps every other field of every move. -/
theorem clearAllActive_getMove (j : Channel) (s : State) :
    (clearAllActive s).getMove j = { s.getMove j with active := false } := by
  fin_cases j <;> simp [clearAllActive, channels, clearActive_getMove]

theorem clearAllActive_eq (s : State) :
    clearAllActive s = { s with mv := (clearAllActive s).mv } := rfl

/-! ### Motion -/

/-- A motion step of channel `i` does nothing, or it writes one step of the move to `mv[i]` and `pos[i]`. -/
theorem motionStep_cases (i : Channel) (s : State) :
    (((s.getMove i).active = false ∨ due s.now (s.getMove i) = false) ∧ motionStep i s = s)
      ∨ ((s.getMove i).active = true ∧ due s.now (s.getMove i) = true
        ∧ motionStep i s = (s.setMove i (stepMove s.now (s.getMove i))).setPos i
            (stepMove s.now (s.getMove i)).current) := by
  unfold motionStep
  cases h1 : (s.getMove i).active <;> cases h2 : due s.now (s.getMove i) <;> simp

@[simp] theorem motionStep_framer (i : Channel) (s : State) : (motionStep i s).framer = s.framer := by
  obtain ⟨-, h⟩ | ⟨-, -, h⟩ := motionStep_cases i s <;> simp [h]

@[simp] theorem motionStep_now (i : Channel) (s : State) : (motionStep i s).now = s.now := by
  obtain ⟨-, h⟩ | ⟨-, -, h⟩ := motionStep_cases i s <;> simp [h]

@[simp] theorem motionStep_tx (i : Channel) (s : State) : (motionStep i s).tx = s.tx := by
  obtain ⟨-, h⟩ | ⟨-, -, h⟩ := motionStep_cases i s <;> simp [h]

@[simp] theorem motionStep_events (i : Channel) (s : State) : (motionStep i s).events = s.events := by
  obtain ⟨-, h⟩ | ⟨-, -, h⟩ := motionStep_cases i s <;> simp [h]

@[simp] theorem motionStep_inputs (i : Channel) (s : State) : (motionStep i s).inputs = s.inputs := by
  obtain ⟨-, h⟩ | ⟨-, -, h⟩ := motionStep_cases i s <;> simp [h]

@[simp] theorem motionStep_params (i : Channel) (s : State) : (motionStep i s).params = s.params := by
  obtain ⟨-, h⟩ | ⟨-, -, h⟩ := motionStep_cases i s <;> simp [h]

@[simp] theorem motionPhase_framer (s : State) : (motionPhase s).framer = s.framer := by
  simp [motionPhase, channels]

@[simp] theorem motionPhase_now (s : State) : (motionPhase s).now = s.now := by
  simp [motionPhase, channels]

@[simp] theorem motionPhase_tx (s : State) : (motionPhase s).tx = s.tx := by
  simp [motionPhase, channels]

@[simp] theorem motionPhase_events (s : State) : (motionPhase s).events = s.events := by
  simp [motionPhase, channels]

@[simp] theorem motionPhase_inputs (s : State) : (motionPhase s).inputs = s.inputs := by
  simp [motionPhase, channels]

@[simp] theorem motionPhase_params (s : State) : (motionPhase s).params = s.params := by
  simp [motionPhase, channels]

/-- The motion engine neither reads nor writes the framer registers. -/
theorem motionStep_setFramer (i : Channel) (s : State) (f : Framer) :
    motionStep i (s.setFramer f) = (motionStep i s).setFramer f := by
  unfold motionStep
  rw [State.getMove_setFramer, State.setFramer_now]
  split <;> rfl

theorem motionPhase_setFramer (s : State) (f : Framer) :
    motionPhase (s.setFramer f) = (motionPhase s).setFramer f := by
  simp [motionPhase, channels, motionStep_setFramer]

/-! ### The framer -/

/-- One framer byte, by the byte expected: what each rule answers. -/
theorem frameByte_hunt {b : Byte} {s : State} (h : s.framer.fstate = .hunt) :
    frameByte b s = (huntByte b s, none) := by simp [frameByte, h]

theorem frameByte_len {b : Byte} {s : State} (h : s.framer.fstate = .len) :
    frameByte b s = (lenByte b s, none) := by simp [frameByte, h]

theorem frameByte_cmd {b : Byte} {s : State} (h : s.framer.fstate = .cmd) :
    frameByte b s = (cmdByte b s, none) := by simp [frameByte, h]

theorem frameByte_pay {b : Byte} {s : State} (h : s.framer.fstate = .pay) :
    frameByte b s = (payByte b s, none) := by simp [frameByte, h]

theorem frameByte_csum {b : Byte} {s : State} (h : s.framer.fstate = .csum) :
    frameByte b s = (csumByte b s, none) := by simp [frameByte, h]

theorem frameByte_fin {b : Byte} {s : State} (h : s.framer.fstate = .fin) :
    frameByte b s = finByte b s := by simp [frameByte, h]

/-- A framer byte writes only the framer registers and the event record. -/
theorem frameByte_frame (b : Byte) (s : State) :
    ∃ f e, (frameByte b s).1 = { s with framer := f, events := e } := by
  unfold frameByte
  split
  · unfold huntByte
    split
    · exact ⟨_, s.events, rfl⟩
    · exact ⟨s.framer, _, rfl⟩
  · unfold lenByte
    split
    · exact ⟨_, _, rfl⟩
    · exact ⟨_, s.events, rfl⟩
  · exact ⟨_, s.events, rfl⟩
  · exact ⟨_, s.events, rfl⟩
  · exact ⟨_, s.events, rfl⟩
  · unfold finByte
    split
    · exact ⟨_, _, rfl⟩
    · split
      · exact ⟨_, _, rfl⟩
      · exact ⟨_, s.events, rfl⟩

/-- A Packet leaves the framer only at the END byte of a valid frame, with the framer back in HUNT. -/
theorem frameByte_packet {b : Byte} {s t : State} {p : Packet} (h : frameByte b s = (t, some p)) :
    s.framer.fstate = .fin ∧ b = Config.endByte ∧ s.framer.fcsum = s.framer.facc
      ∧ t = s.setFramer s.framer.resync ∧ p = heldPacket s.framer := by
  unfold frameByte at h
  split at h <;> try simp at h
  next hf =>
    unfold finByte at h
    split at h
    · simp at h
    · next hb =>
      split at h
      · simp at h
      · next hc =>
        simp only [Prod.mk.injEq, Option.some.injEq] at h
        exact ⟨hf, not_ne_iff.mp hb, not_ne_iff.mp hc, h.1.symm, h.2.symm⟩

/-- The timeout check does nothing or drops the open frame. -/
theorem timeoutCheck_cases (s : State) :
    timeoutCheck s = s ∨ (s.framer.fstate ≠ .hunt ∧ timeoutCheck s = dropFrame .frameTimeout s) := by
  unfold timeoutCheck
  split
  · next h => exact .inr ⟨h.1, rfl⟩
  · exact .inl rfl

/-! ### The dispatcher -/

/-- What a dispatched packet does: an ERROR for a packet that is no command, else the command. -/
theorem dispatch_cases (p : Packet) (s : State) :
    (∃ c, decodePacket p = .error c ∧ dispatch p s = .next (replyError c s))
      ∨ (∃ i, decodePacket p = .ok i ∧ dispatch p s = exec i s) := by
  unfold dispatch
  cases h : decodePacket p with
  | error c => exact .inl ⟨c, rfl, rfl⟩
  | ok i => exact .inr ⟨i, rfl, rfl⟩

end Sys2Proof.Machine
end

