-- ==== Sys2Proof/Laws/PerInstr.lean ====
section
/-! SUPPORT. The family `RequestLength`: the request frame of each command is as long as spec/30_encoding.md R72
and R79 say, `5 + L` bytes with the one payload length `L` of its code. -/

namespace Sys2Proof.Laws.RequestLength

/-- The command's payload has the length its code requires, and its frame is five bytes longer. -/
def Statement (i : Instr) : Prop :=
  reqLen i.code = some i.payload.length ∧ (encode i).length = 5 + i.payload.length

theorem ping : Statement .ping := by unfold Statement; decide

theorem setServo (channel : Byte) (pw : Half) : Statement (.setServo channel pw) := by
  constructor <;> rfl

theorem getServo (channel : Byte) : Statement (.getServo channel) := by
  constructor <;> rfl

theorem getAll : Statement .getAll := by unfold Statement; decide

theorem moveStepped (channel : Byte) (target : Half) (step : Byte) (delay : Half) :
    Statement (.moveStepped channel target step delay) := by
  constructor <;> rfl

theorem stopMove (channel : Byte) : Statement (.stopMove channel) := by
  constructor <;> rfl

theorem getMoveStatus : Statement .getMoveStatus := by unfold Statement; decide

end Sys2Proof.Laws.RequestLength
end

