-- ==== Sys2Proof/Tests/Slice0.lean ====
section
/-! SUPPORT. Small tests: the checks of WellFormed, decoding of words written out from spec/30_encoding.md and
spec/41_dispatcher.md, vectors of spec/95_test_vectors.md (their numbers stand in the names), and a witness for the
hypotheses of each statement. The parameters are the example values of spec/00_scope.md R8. -/

open Sys2Proof Sys2Proof.Machine Sys2Proof.Claims

namespace Sys2Proof.Tests

/-- The example parameters of R8. -/
def exampleParams : Config.Params := ⟨100, [0x50, 0x4F, 0x4E, 0x47], 1500⟩

/-- The reset state of the example device with these inputs to come. -/
def start (ins : List Input) : State := State.resetWith exampleParams ins

/-- The next state. -/
def after (s : State) : State :=
  match step s with
  | .next t => t
  | .fault _ => s
  | .refused _ => s

/-- The state after one tick from reset. -/
def oneTick (now : Time) (rx : List Byte) : State := after (start [.tick now rx])

/-- A device whose channel 0 moves: from `pos` toward `target` by `size`, every `wait` counts, last step at
`last`. -/
def moving (pos target size wait : Half) (last : Time) (ins : List Input) : State :=
  ((start ins).setMove 0 ⟨true, target, pos, size, wait, last⟩).setPos 0 pos

/-- A device whose framer holds an open frame in the given state of the framer. -/
def framing (st : FState) (len idx : BitVec 6) (acc cs : Byte) (t0 : Time) (ins : List Input) : State :=
  (start ins).setFramer ⟨st, len, 0x01, Vector.replicate 32 0, idx, acc, cs, t0⟩

/-! ## WellFormed: each check refuses an ill-formed term -/

theorem test_wf_refuses_long_timeout : (Config.Params.mk 0x80000000 [] 1500).wf = false := by decide
theorem test_wf_refuses_long_marker : (Config.Params.mk 100 (List.replicate 33 0) 1500).wf = false := by decide
theorem test_wf_refuses_low_reset_width : (Config.Params.mk 100 [] 499).wf = false := by decide
theorem test_wf_refuses_high_reset_width : (Config.Params.mk 100 [] 2501).wf = false := by decide
theorem test_wf_accepts_example : exampleParams.wf = true := by decide
theorem test_wf_refuses_long_packet : (Packet.mk 0x10 (List.replicate 33 0)).wf = false := by decide
theorem test_wf_refuses_bad_channel : (Instr.setServo 4 1500).wf = false ∧ (Instr.getServo 4).wf = false
    ∧ (Instr.moveStepped 0xFF 0 0 0).wf = false ∧ (Instr.stopMove 0xFE).wf = false := by decide
theorem test_wf_refuses_bad_width : (Instr.setServo 0 499).wf = false ∧ (Instr.setServo 0 2501).wf = false := by
  decide
theorem test_wf_accepts_broadcast : (Instr.stopMove 0xFF).wf = true ∧ (Instr.stopMove 3).wf = true := by decide

/-! ## Decoding: frames written out byte by byte -/

-- R85, R140
theorem test_decode_ping : decode [0xAA, 0x00, 0x01, 0x01, 0x55] = .ok (.ping, []) := by decide
-- V12: channel 1, 2500 = 0x09C4
theorem test_decode_set_servo :
    decode [0xAA, 0x03, 0x02, 0x01, 0x09, 0xC4, 0xCD, 0x55] = .ok (.setServo 1 2500, []) := by decide
-- V21
theorem test_decode_get_servo : decode [0xAA, 0x01, 0x03, 0x03, 0x01, 0x55] = .ok (.getServo 3, []) := by decide
-- R85, R145
theorem test_decode_get_all : decode [0xAA, 0x00, 0x04, 0x04, 0x55] = .ok (.getAll, []) := by decide
-- V28: 1000 degrees = 0x03E8
theorem test_decode_move_stepped : decode [0xAA, 0x06, 0x05, 0x00, 0x03, 0xE8, 0x09, 0x00, 0x00, 0xE1, 0x55]
    = .ok (.moveStepped 0 1000 9 0, []) := by decide
-- R85
theorem test_decode_stop_move : decode [0xAA, 0x01, 0x06, 0xFF, 0xF8, 0x55] = .ok (.stopMove 0xFF, []) := by decide
-- R85, R153
theorem test_decode_get_move_status : decode [0xAA, 0x00, 0x07, 0x07, 0x55] = .ok (.getMoveStatus, []) := by
  decide
-- V2, V5, R103, R107, R102, and a frame that is not complete
theorem test_decode_rejects :
    decode [0xAA, 0x00, 0x08, 0x08, 0x55] = .error (.answered .unknownCommand)
    ∧ decode [0xAA, 0x01, 0x01, 0x00, 0x00, 0x55] = .error (.answered .badLength)
    ∧ decode [0xAA, 0x21, 0x00] = .error (.dropped .lengthOverflow)
    ∧ decode [0xAA, 0x00, 0x01, 0x01, 0x54] = .error (.dropped .badEndMarker)
    ∧ decode [0xAA, 0x00, 0x01, 0x00, 0x55] = .error (.dropped .checksumMismatch)
    ∧ decode [0x13] = .error (.dropped .badStartMarker)
    ∧ decode [0xAA, 0x00, 0x01, 0x01] = .error .incomplete := by decide
-- opcode_table.json: command byte in bits 7..0, payload bytes above it
theorem test_table_word : decodeTableWord 8 0x05 = some (.moveStepped 0 0 0 0)
    ∧ decodeTableWord 32 0xE8030302 = some (.setServo 3 1000) ∧ decodeTableWord 8 0x08 = none := by decide
theorem test_table_word_runs : step (State.reset.withFetchWord 8 0x06)
    = .next { State.reset with tx := [0xAA, 0x00, 0x00, 0x00, 0x55] } := rfl

/-! ## Shared computations (95 section 2) -/

theorem test_checksum : checksum 0x06 0x05 [0x00, 0x00, 0xB4, 0x09, 0x00, 0x0A] = 0xB4
    ∧ checksum 0x03 0x02 [0x00, 0x05, 0xAA] = 0xAE := by decide
theorem test_deg_to_pw : [1, 45, 179, 181, 65535].map degToPw = [511, 1000, 2488, 2500, 2500] := by decide
theorem test_step_to_pw : [0, 1, 9, 27, 255].map stepToPw = [1, 11, 100, 300, 2000] := by decide
theorem test_pw_to_deg100 : [500, 511, 1500, 2500].map pwToDeg100 = [0, 99, 9000, 18000] := by decide

/-! ## Commands (95 section 4): one tick from reset -/

-- V10
theorem test_ping_answer : (oneTick 0 [0xAA, 0x00, 0x01, 0x01, 0x55]).tx
    = [0xAA, 0x04, 0x00, 0x50, 0x4F, 0x4E, 0x47, 0x12, 0x55] := by decide
-- V14
theorem test_set_servo_writes : (oneTick 0 [0xAA, 0x03, 0x02, 0x03, 0x03, 0xE8, 0xE9, 0x55]).pos
    = #v[1500, 1500, 1500, 1000] := by decide
-- V16
theorem test_set_servo_rejects :
    (oneTick 0 [0xAA, 0x03, 0x02, 0x00, 0x09, 0xC5, 0xCD, 0x55]).tx = [0xAA, 0x00, 0xFF, 0xFF, 0x55]
    ∧ (oneTick 0 [0xAA, 0x03, 0x02, 0x00, 0x09, 0xC5, 0xCD, 0x55]).getPos 0 = 1500 := by decide
-- V20, V22
theorem test_get_servo_answer : (oneTick 0 [0xAA, 0x01, 0x03, 0x00, 0x02, 0x55]).tx
    = [0xAA, 0x03, 0x00, 0x00, 0x05, 0xDC, 0xDA, 0x55] := by decide
theorem test_get_servo_rejects : (oneTick 0 [0xAA, 0x01, 0x03, 0x04, 0x06, 0x55]).tx
    = [0xAA, 0x00, 0xFF, 0xFF, 0x55] := by decide
-- V24
theorem test_get_all_answer :
    (after (((start [.tick 0 [0xAA, 0x00, 0x04, 0x04, 0x55]]).setPos 0 1000).setPos 1 2000)).tx
      = [0xAA, 0x08, 0x00, 0x03, 0xE8, 0x07, 0xD0, 0x05, 0xDC, 0x05, 0xDC, 0x34, 0x55] := by decide
-- V29, V30
theorem test_move_stepped_starts :
    (oneTick 7 [0xAA, 0x06, 0x05, 0x02, 0x00, 0xB4, 0x09, 0x00, 0x14, 0xA8, 0x55]).getMove 2
      = ⟨true, 2500, 1500, 100, 20, 7⟩ := by decide +kernel
theorem test_move_stepped_rejects :
    (oneTick 0 [0xAA, 0x06, 0x05, 0x04, 0x00, 0x5A, 0x09, 0x00, 0x0A, 0x5E, 0x55]).events = [.badChannel] := by
  decide
-- V31, V35
theorem test_stop_move_freezes :
    (after (moving 600 2500 100 10 0 [.tick 5 [0xAA, 0x01, 0x06, 0x00, 0x07, 0x55]])).getMove 0
      = ⟨false, 2500, 600, 100, 10, 0⟩ := by decide
theorem test_stop_move_rejects : (oneTick 0 [0xAA, 0x01, 0x06, 0xFE, 0xF9, 0x55]).events = [.badChannel] := by
  decide
-- V37
theorem test_get_move_status_answer :
    (after (moving 1600 2500 100 10 0 [.tick 5 [0xAA, 0x00, 0x07, 0x07, 0x55]])).tx
      = [0xAA, 0x0C, 0x00, 0x01, 0x00, 0x00, 0x00, 0x26, 0xAC, 0x23, 0x28, 0x23, 0x28, 0x23, 0x28, 0x8C, 0x55] := by
  decide

/-! ## The framer (95 section 3) -/

theorem test_F1_hunt : (oneTick 0 [0x13, 0x55, 0x00, 0xAA, 0x00, 0x01, 0x01, 0x55]).events
    = [.badStartMarker, .badStartMarker, .badStartMarker] := by decide
theorem test_F3_longest_length : (oneTick 0 [0xAA, 0x20]).framer.fstate = .cmd
    ∧ (oneTick 0 [0xAA, 0x20]).framer.flen = 32 := by decide
theorem test_F4_start_byte_as_length : (oneTick 0 [0xAA, 0xAA, 0x00, 0x01, 0x01, 0x55]).events
    = [.lengthOverflow, .badStartMarker, .badStartMarker, .badStartMarker, .badStartMarker] := by decide
theorem test_F8_end_marker_first : (oneTick 0 [0xAA, 0x00, 0x01, 0x00, 0x54]).events = [.badEndMarker] := by
  decide
theorem test_F9_marker_as_data : (oneTick 0 [0xAA, 0x03, 0x02, 0x00, 0x05, 0xAA, 0xAE, 0x55]).getPos 0 = 1450 := by
  decide
theorem test_F13_timeout :
    (after (framing .cmd 3 0 3 0 1000 [.tick 1101 [0x02]])).events = [.frameTimeout, .badStartMarker] := by decide
theorem test_F12_window_open :
    (after (framing .cmd 3 0 3 0 1000 [.tick 1100 [0x02]])).framer.fstate = .pay := by decide
theorem test_F16_wrapped_timeout :
    (after (framing .cmd 0 0 0 0 0xFFFFFFF0 [.tick 0x55 []])).events = [.frameTimeout] := by decide

/-! ## Motion and the tick (95 sections 5 and 7) -/

-- M1, first and last step
theorem test_M1_advance : (after (moving 500 2500 100 10 0 [.tick 10 []])).getPos 0 = 600 := by decide
theorem test_M1_snap : (after (moving 2400 2500 100 10 190 [.tick 200 []])).getMove 0
    = ⟨false, 2500, 2500, 100, 10, 200⟩ := by decide
-- M2, downward
theorem test_M2_down : (after (moving 2500 500 300 0 0 [.tick 1 []])).getPos 0 = 2200 := by decide
-- M4, not due
theorem test_M4_not_due : (after (moving 1500 1000 200 10 100 [.tick 109 []])).getPos 0 = 1500 := by decide
-- M7, wrapped time
theorem test_M7_wrap : (after (moving 1500 2500 100 10 0xFFFFFFF8 [.tick 2 []])).getPos 0 = 1600 := by decide
-- T1: two frames in one tick
theorem test_T1_in_order : (oneTick 0
    [0xAA, 0x03, 0x02, 0x00, 0x03, 0xE8, 0xEA, 0x55, 0xAA, 0x01, 0x03, 0x00, 0x02, 0x55]).tx
    = [0xAA, 0x00, 0x00, 0x00, 0x55, 0xAA, 0x03, 0x00, 0x00, 0x03, 0xE8, 0xE8, 0x55] := by decide
-- T6
theorem test_T6_reset : after (moving 600 2500 100 10 0 [.reset]) = start [] := rfl

/-! ## Witnesses: for each statement with hypotheses, a state and operands that meet them -/

theorem witness_DecodedBytesAreTheEncoding :
    decode [0xAA, 0x01, 0x03, 0x03, 0x01, 0x55, 0x13] = .ok (.getServo 3, [0x13]) := by decide
theorem witness_PulseWidthToCentidegrees : 500 ≤ (500 : Half).toNat ∧ (500 : Half).toNat ≤ 2500
    ∧ 500 ≤ (2500 : Half).toNat ∧ (2500 : Half).toNat ≤ 2500 := by decide
theorem witness_PingAnswersItsMarker : ([0x00] : List Byte).length ≠ 0 := by decide
theorem witness_SetServo_accepted : (3 : Byte).toNat = (3 : Channel).val
    ∧ 500 ≤ (500 : Half).toNat ∧ (500 : Half).toNat ≤ 2500
    ∧ 500 ≤ (2500 : Half).toNat ∧ (2500 : Half).toNat ≤ 2500 := by decide
theorem witness_SetServo_channel : 4 ≤ (4 : Byte).toNat := by decide
theorem witness_SetServo_width : (3 : Byte).toNat < 4
    ∧ ((499 : Half).toNat < 500 ∨ 2500 < (499 : Half).toNat)
    ∧ ((2501 : Half).toNat < 500 ∨ 2500 < (2501 : Half).toNat) := by decide
theorem witness_SetServo_length : ([0x00, 0x05] : List Byte).length ≠ 3
    ∧ ([0x00, 0x05, 0xDC, 0x00] : List Byte).length ≠ 3 := by decide
theorem witness_GetServo : (0 : Byte).toNat = (0 : Channel).val ∧ (3 : Byte).toNat = (3 : Channel).val
    ∧ 4 ≤ (4 : Byte).toNat ∧ ([] : List Byte).length ≠ 1 := by decide
theorem witness_GetAll : ([0x00] : List Byte).length ≠ 0 := by decide
theorem witness_MoveStepped : (0 : Byte).toNat = (0 : Channel).val ∧ (3 : Byte).toNat = (3 : Channel).val
    ∧ 4 ≤ (4 : Byte).toNat ∧ ([0x00, 0x00, 0x5A, 0x09, 0x00] : List Byte).length ≠ 6 := by decide
theorem witness_StopMove : (0 : Byte).toNat = (0 : Channel).val ∧ (3 : Byte).toNat = (3 : Channel).val
    ∧ (4 ≤ (4 : Byte).toNat ∧ (4 : Byte).toNat ≤ 0xFE) ∧ (4 ≤ (0xFE : Byte).toNat ∧ (0xFE : Byte).toNat ≤ 0xFE)
    ∧ ([] : List Byte).length ≠ 1 := by decide
theorem witness_GetMoveStatus : 500 ≤ ((start []).getPos 3).toNat ∧ ((start []).getPos 3).toNat ≤ 2500
    ∧ ([0x00] : List Byte).length ≠ 0 := by decide
theorem witness_UnknownCommand : ((0x00 : Byte) = 0x00 ∨ 0x08 ≤ (0x00 : Byte).toNat)
    ∧ ((0x08 : Byte) = 0x00 ∨ 0x08 ≤ (0x08 : Byte).toNat)
    ∧ ((0xFF : Byte) = 0x00 ∨ 0x08 ≤ (0xFF : Byte).toNat) := by decide
theorem witness_WrongLength :
    ((0x05 : Byte).toNat, 6) ∈ [(1, 0), (2, 3), (3, 1), (4, 0), (5, 6), (6, 1), (7, 0)]
    ∧ ([0x00, 0x00, 0x5A, 0x09, 0x00] : List Byte).length ≠ 6 := by decide
theorem witness_RightLength :
    ((0x07 : Byte).toNat, 0) ∈ [(1, 0), (2, 3), (3, 1), (4, 0), (5, 6), (6, 1), (7, 0)]
    ∧ ([] : List Byte).length = 0 := by decide
theorem witness_Accepted : (Instr.setServo 3 500).wf = true ∧ (Instr.setServo 3 499).wf = false
    ∧ (Instr.stopMove 0xFF).wf = true ∧ (Instr.stopMove 4).wf = false := by decide
theorem witness_EveryPacketGetsOneResponse : (start []).params.wf = true := by decide
theorem witness_CommandsLeave : exec .getAll (start []) = .next (after (start
    [.tick 0 [0xAA, 0x00, 0x04, 0x04, 0x55]])) := rfl
theorem witness_PositionStore_setServo : ∃ t, exec (.setServo 3 500) (start []) = .next t
    ∧ t.getPos 3 ≠ (start []).getPos 3 := ⟨_, rfl, by decide⟩
theorem witness_PositionStore_motion : (motionStep 0 (moving 500 2500 100 0 0 [])).getPos 0
    ≠ (moving 500 2500 100 0 0 []).getPos 0 := by decide
theorem witness_ActiveFlag_exec : ∃ t, exec (.stopMove 0) (moving 500 2500 100 0 0 []) = .next t
    ∧ t.getMove 0 ≠ (moving 500 2500 100 0 0 []).getMove 0 := ⟨_, rfl, by decide⟩
theorem witness_ActiveFlag_started : ∃ t, exec (.moveStepped 3 90 9 0) (start []) = .next t
    ∧ t.getMove 3 ≠ (start []).getMove 3 := ⟨_, rfl, by decide⟩
theorem witness_ActiveFlag_motion : (motionStep 0 (moving 2450 2500 100 0 0 [])).getMove 0
    ≠ (moving 2450 2500 100 0 0 []).getMove 0
    ∧ ((motionStep 0 (moving 2450 2500 100 0 0 [])).getMove 0).active = false := by decide
theorem witness_Hunt : (start []).framer.fstate = .hunt ∧ (0xAB : Byte) ≠ 0xAA := by decide
theorem witness_LengthByte : (framing .len 0 0 0 0 0 []).framer.fstate = .len
    ∧ 32 < (33 : Byte).toNat ∧ (32 : Byte).toNat ≤ 32 := by decide
theorem witness_CommandByte : (framing .cmd 0 0 0 0 0 []).framer.fstate = .cmd
    ∧ (framing .cmd 0 0 0 0 0 []).framer.flen.toNat = 0
    ∧ (framing .cmd 32 0 32 0 0 []).framer.fstate = .cmd
    ∧ (framing .cmd 32 0 32 0 0 []).framer.flen.toNat ≠ 0 := by decide
theorem witness_PayloadByte : (framing .pay 32 31 0 0 0 []).framer.fstate = .pay
    ∧ (framing .pay 32 31 0 0 0 []).framer.fidx.toNat ≤ 31
    ∧ (framing .pay 32 31 0 0 0 []).framer.fidx.toNat + 1 = (framing .pay 32 31 0 0 0 []).framer.flen.toNat
    ∧ (framing .pay 32 0 0 0 0 []).framer.fidx.toNat + 1 ≠ (framing .pay 32 0 0 0 0 []).framer.flen.toNat := by
  decide
theorem witness_EndByte : (framing .csum 0 0 1 0 0 []).framer.fstate = .csum
    ∧ (framing .fin 0 0 1 1 0 []).framer.fstate = .fin ∧ (0x54 : Byte) ≠ 0x55
    ∧ (framing .fin 0 0 1 0 0 []).framer.fcsum ≠ (framing .fin 0 0 1 0 0 []).framer.facc
    ∧ (framing .fin 0 0 1 1 0 []).framer.fcsum = (framing .fin 0 0 1 1 0 []).framer.facc := by decide
theorem witness_ExpiredFrame : (framing .cmd 3 0 3 0 0xFFFFFF9B []).framer.fstate ≠ .hunt
    ∧ (framing .cmd 3 0 3 0 0xFFFFFF9B []).params.frameTimeout.toNat
      < since (framing .cmd 3 0 3 0 0xFFFFFF9B []).now (framing .cmd 3 0 3 0 0xFFFFFF9B []).framer.ft0
    ∧ (start []).framer.fstate = .hunt
    ∧ since (framing .cmd 3 0 3 0 0xFFFFFF9C []).now (framing .cmd 3 0 3 0 0xFFFFFF9C []).framer.ft0
      ≤ (framing .cmd 3 0 3 0 0xFFFFFF9C []).params.frameTimeout.toNat := by decide
theorem witness_FramingError_byte : ∃ t, byteStep 0x21 (framing .len 0 0 0 0 0 []) = .next t
    ∧ Cause.lengthOverflow.errorClass = .framingError
    ∧ t.events = (framing .len 0 0 0 0 0 []).events ++ [.lengthOverflow] := ⟨_, rfl, rfl, rfl⟩
theorem witness_FramingError_timeout : (timeoutCheck (framing .cmd 3 0 3 0 0xFFFFFF9B [])).events
    = (framing .cmd 3 0 3 0 0xFFFFFF9B []).events ++ [.frameTimeout] := by decide
theorem witness_FramerDelivers : (start []).framer.fstate = .hunt ∧ (List.replicate 32 (0xAA : Byte)).length ≤ 32 := by
  decide
theorem witness_OneCorruptedByte : (start []).framer.fstate = .hunt
    ∧ ([0x00, 0x05, 0xDC] : List Byte).length ≤ 32
    ∧ ([0x00, 0x05, 0xDD] : List Byte).length = ([0x00, 0x05, 0xDC] : List Byte).length
    ∧ (0xD8 : Byte) = xorOnto (BitVec.ofNat 8 ([0x00, 0x05, 0xDC] : List Byte).length ^^^ 0x02) [0x00, 0x05, 0xDC]
    ∧ ([0x00, 0x05, 0xDC] : List Byte) = [0x00, 0x05] ++ 0xDC :: []
    ∧ ([0x00, 0x05, 0xDD] : List Byte) = [0x00, 0x05] ++ 0xDD :: [] ∧ (0xDC : Byte) ≠ 0xDD
    ∧ (0x03 : Byte) ≠ 0x02 ∧ (0xD9 : Byte) ≠ 0xD8 := by decide
theorem witness_IdleChannel : ((start []).getMove 3).active = false := by decide
theorem witness_MovingChannel : ((moving 500 2500 100 10 0xFFFFFFF7 []).getMove 0).active = true
    ∧ since (moving 500 2500 100 10 0xFFFFFFF7 []).now ((moving 500 2500 100 10 0xFFFFFFF7 []).getMove 0).last
      < ((moving 500 2500 100 10 0xFFFFFFF7 []).getMove 0).interval.toNat
    ∧ ((moving 500 2500 100 10 0xFFFFFFF6 []).getMove 0).interval.toNat
      ≤ since (moving 500 2500 100 10 0xFFFFFFF6 []).now ((moving 500 2500 100 10 0xFFFFFFF6 []).getMove 0).last := by
  decide
theorem witness_eligible : eligible 0 (moving 2400 2500 100 10 0xFFFFFFF6 []) := by
  unfold eligible
  decide
theorem witness_Snap : eligible 0 (moving 2400 2500 100 10 0xFFFFFFF6 [])
    ∧ (gap ((moving 2400 2500 100 10 0xFFFFFFF6 []).getMove 0)).natAbs
      ≤ ((moving 2400 2500 100 10 0xFFFFFFF6 []).getMove 0).step.toNat := ⟨witness_eligible, by decide⟩
theorem witness_Advance_up : eligible 0 (moving 2399 2500 100 0 0 [])
    ∧ ((moving 2399 2500 100 0 0 []).getMove 0).ok = true
    ∧ ((moving 2399 2500 100 0 0 []).getMove 0).step.toNat
      < (gap ((moving 2399 2500 100 0 0 []).getMove 0)).natAbs
    ∧ 0 < gap ((moving 2399 2500 100 0 0 []).getMove 0) := by
  unfold eligible
  decide
theorem witness_Advance_down : eligible 0 (moving 2500 500 1999 0 0 [])
    ∧ ((moving 2500 500 1999 0 0 []).getMove 0).ok = true
    ∧ ((moving 2500 500 1999 0 0 []).getMove 0).step.toNat
      < (gap ((moving 2500 500 1999 0 0 []).getMove 0)).natAbs
    ∧ gap ((moving 2500 500 1999 0 0 []).getMove 0) < 0 := by
  unfold eligible
  decide
theorem witness_Channels : (0 : Channel) ≠ 3 := by decide
-- M3: 1497 to 1500 by 1, three eligible ticks
theorem witness_MoveEnds : ((moving 1497 1500 1 0 0 []).getMove 0).active = true
    ∧ ((moving 1497 1500 1 0 0 []).getMove 0).ok = true
    ∧ allDue 0 [1, 2, 3] (moving 1497 1500 1 0 0 [])
    ∧ ([1, 2, 3] : List Time).length
      = max 1 (((gap ((moving 1497 1500 1 0 0 []).getMove 0)).natAbs + 1 - 1) / 1)
    ∧ allDue 0 [1, 2] (moving 1497 1500 1 0 0 []) :=
  ⟨by decide, by decide, ⟨by decide, by decide, by decide, trivial⟩, by decide, ⟨by decide, by decide, trivial⟩⟩
theorem witness_StepRuns : ∃ s : State, s.inputs = .tick 5 [0xAA, 0x00, 0x04, 0x04, 0x55, 0xAA] :: []
    ∧ s.framer.fstate = .hunt
    ∧ decode [0xAA, 0x00, 0x04, 0x04, 0x55, 0xAA] = .ok (.getAll, [0xAA]) :=
  ⟨start [.tick 5 [0xAA, 0x00, 0x04, 0x04, 0x55, 0xAA]], rfl, rfl, by decide⟩
theorem witness_PlacedWord : decodeTableWord 8 0x01 = some .ping := by decide
theorem witness_Pause : ∃ s : State, s.inputs = .tick 101 (encode .ping) :: []
    ∧ s.framer.fstate ≠ .hunt ∧ s.params.frameTimeout.toNat < since 101 s.framer.ft0 :=
  ⟨framing .pay 3 1 0 0 0 [.tick 101 (encode .ping)], rfl, by decide, by decide⟩
theorem witness_OpenFrame : ∃ s t : State, s.inputs = .tick 100 [] :: [] ∧ step s = .next t
    ∧ s.framer.fstate ≠ .hunt
    ∧ (s.framer.fstate = .hunt ∨ since 100 s.framer.ft0 ≤ s.params.frameTimeout.toNat) :=
  ⟨framing .pay 3 1 0 0 0 [.tick 100 []], _, rfl, rfl, by decide, by decide⟩
theorem witness_HuntingWithChannel : (start []).framer.fstate = .hunt ∧ (3 : Byte).toNat = (3 : Channel).val := by
  decide
theorem witness_Reset : (moving 600 2500 100 10 0 [.reset]).inputs = .reset :: [] := rfl
theorem witness_NoInput : (start []).inputs = [] := rfl
theorem witness_Invariant : (moving 600 2500 100 10 0 [.tick 10 [0xAA, 0x03]]).Inv
    ∧ ∃ t, step (moving 600 2500 100 10 0 [.tick 10 [0xAA, 0x03]]) = .next t :=
  ⟨by decide, _, rfl⟩
theorem witness_ElapsedIsTrueTime : ∃ s t : State, ClockOk 105 s
    ∧ 5 + max 65535 s.params.frameTimeout.toNat < 2 ^ 32
    ∧ s.inputs = .tick (stampOf (105 + 5)) [] :: [] ∧ step s = .next t
    ∧ (s.getMove 0).active = true := by
  refine ⟨moving 600 2500 100 10 100 [.tick (stampOf 110) []], _, ⟨fun i => ?_, fun h => absurd rfl h⟩, by decide,
    rfl, rfl, rfl⟩
  fin_cases i
  · exact fun _ => ⟨100, by decide, by decide, rfl⟩
  · exact fun h => absurd h (by decide)
  · exact fun h => absurd h (by decide)
  · exact fun h => absurd h (by decide)

end Sys2Proof.Tests
end

section
/-! SUPPORT. What a command, a byte, a tick's bytes and a step can do, each said once, and from these the two
statements about the OPEN parameters and reset (spec/00_scope.md R7, spec/10_state.md R34). -/

namespace Sys2Proof.Machine

/-! ### Commands -/

/-- `Accepted i s u`: before its OK response, command `i` brings `s` to `u`. A query writes nothing (R140, R143, R145,
R153), SET_SERVO one pulse width (R141), MOVE_STEPPED one move (R147), STOP_MOVE one flag or all four (R150). -/
inductive Accepted : Instr → State → State → Prop
  | ping (s : State) : Accepted .ping s s
  | getServo {ch : Byte} {j : Channel} (s : State) (hch : ch.toNat = j.val) : Accepted (.getServo ch) s s
  | getAll (s : State) : Accepted .getAll s s
  | getMoveStatus (s : State) : Accepted .getMoveStatus s s
  | setServo {ch : Byte} {j : Channel} {pw : Half} (s : State) (hch : ch.toNat = j.val)
      (hpw : pulseInRange pw = true) : Accepted (.setServo ch pw) s (s.setPos j pw)
  | moveStepped {ch : Byte} {j : Channel} {target : Half} {size : Byte} {delay : Half} (s : State)
      (hch : ch.toNat = j.val) :
      Accepted (.moveStepped ch target size delay) s (s.setMove j (startedMove j target size delay s))
  | stopMove {ch : Byte} {j : Channel} (s : State) (hch : ch.toNat = j.val) :
      Accepted (.stopMove ch) s (clearActive j s)
  | stopAll (s : State) : Accepted (.stopMove Config.broadcast) s (clearAllActive s)

/-- Every command is answered: ERROR with nothing written, or OK after its accepted effect. -/
theorem exec_cases (i : Instr) (s : State) :
    (∃ c, exec i s = .next (replyError c s))
      ∨ ∃ payload u, Accepted i s u ∧ exec i s = .next (replyOk payload u) := by
  cases i with
  | ping => exact .inr ⟨_, _, .ping s, rfl⟩
  | getAll => exact .inr ⟨_, _, .getAll s, rfl⟩
  | getMoveStatus => exact .inr ⟨_, _, .getMoveStatus s, rfl⟩
  | getServo ch =>
    cases hch : channelOf ch with
    | none => exact .inl ⟨.badChannel, by simp only [exec, execGetServo, hch]⟩
    | some j =>
      exact .inr ⟨ch :: be16 (s.getPos j), _, .getServo s (channelOf_eq_some.mp hch),
        by simp only [exec, execGetServo, hch]⟩
  | setServo ch pw =>
    cases hch : channelOf ch with
    | none => exact .inl ⟨.badChannel, by simp only [exec, execSetServo, hch]⟩
    | some j =>
      cases hpw : pulseInRange pw with
      | false => exact .inl ⟨.badPulseWidth, by simp [exec, execSetServo, hch, hpw]⟩
      | true =>
        exact .inr ⟨[], _, .setServo s (channelOf_eq_some.mp hch) hpw, by simp [exec, execSetServo, hch, hpw]⟩
  | moveStepped ch target size delay =>
    cases hch : channelOf ch with
    | none => exact .inl ⟨.badChannel, by simp only [exec, execMoveStepped, hch]⟩
    | some j =>
      exact .inr ⟨[], _, .moveStepped s (channelOf_eq_some.mp hch), by simp only [exec, execMoveStepped, hch]⟩
  | stopMove ch =>
    by_cases hall : ch = Config.broadcast
    · subst hall
      exact .inr ⟨_, _, .stopAll s, rfl⟩
    · cases hch : channelOf ch with
      | none => exact .inl ⟨.badChannel, by simp [exec, execStopMove, hall, hch]⟩
      | some j =>
        exact .inr ⟨[], _, .stopMove s (channelOf_eq_some.mp hch), by simp [exec, execStopMove, hall, hch]⟩

/-- The possible answers of a command that ended in `t`. -/
theorem exec_eq_next {i : Instr} {s t : State} (h : exec i s = .next t) :
    (∃ c, t = replyError c s) ∨ ∃ payload u, Accepted i s u ∧ t = replyOk payload u := by
  obtain ⟨c, hc⟩ | ⟨payload, u, hu, hok⟩ := exec_cases i s
  · exact .inl ⟨c, Host.Outcome.next.inj (h.symm.trans hc)⟩
  · exact .inr ⟨payload, u, hu, Host.Outcome.next.inj (h.symm.trans hok)⟩

/-! ### Bytes -/

/-- A byte leaves no packet, or the packet it completes is dispatched at once (R107, R200). -/
theorem byteStep_eq_next {b : Byte} {s t : State} (h : byteStep b s = .next t) :
    frameByte b s = (t, none) ∨ ∃ u p, frameByte b s = (u, some p) ∧ dispatch p u = .next t := by
  unfold byteStep at h
  split at h
  · next u hu => exact .inl (Host.Outcome.next.inj h ▸ hu)
  · next u p hu => exact .inr ⟨u, p, hu, h⟩

/-- What one byte keeps, the bytes of a tick keep. -/
theorem drain_preserves {P : State → Prop} (hbyte : ∀ b s t, P s → byteStep b s = .next t → P t)
    (bs : List Byte) {s t : State} (hs : P s) (h : drain bs s = .next t) : P t := by
  induction bs generalizing s with
  | nil => exact Host.Outcome.next.inj h ▸ hs
  | cons b bs ih =>
    obtain ⟨u, hb, hrest⟩ := andThen_eq_next h
    exact ih (hbyte b s u hs hb) hrest

/-! ### Steps -/

/-- A step takes no event, one tick, or one reset, by the oldest input (R200, R206, R240). -/
theorem step_eq_next {s t : State} (h : step s = .next t) :
    (s.inputs = [] ∧ t = { s with tx := [], events := [] })
      ∨ (∃ now rx rest, s.inputs = .tick now rx :: rest
          ∧ drain rx (beforeBytes now { s with inputs := rest }) = .next t)
      ∨ (∃ rest, s.inputs = .reset :: rest ∧ t = State.resetWith s.params rest) := by
  unfold step runInput at h
  split at h
  · next hin => exact .inl ⟨hin, (Host.Outcome.next.inj h).symm⟩
  · next now rx rest hin => exact .inr (.inl ⟨now, rx, rest, hin, h⟩)
  · next rest hin => exact .inr (.inr ⟨rest, hin, (Host.Outcome.next.inj h).symm⟩)

/-! ### The parameters are written nowhere -/

@[simp] theorem clearActive_params (i : Channel) (s : State) : (clearActive i s).params = s.params := rfl

@[simp] theorem clearAllActive_params (s : State) : (clearAllActive s).params = s.params := rfl

@[simp] theorem timeoutCheck_params (s : State) : (timeoutCheck s).params = s.params := by
  obtain h | ⟨-, h⟩ := timeoutCheck_cases s <;> simp [h]

@[simp] theorem beforeBytes_params (now : Time) (s : State) : (beforeBytes now s).params = s.params := by
  simp [beforeBytes]

@[simp] theorem frameByte_params (b : Byte) (s : State) : (frameByte b s).1.params = s.params := by
  obtain ⟨f, e, h⟩ := frameByte_frame b s
  rw [h]

theorem Accepted.params {i : Instr} {s u : State} (h : Accepted i s u) : u.params = s.params := by
  cases h <;> simp

theorem exec_params {i : Instr} {s t : State} (h : exec i s = .next t) : t.params = s.params := by
  obtain ⟨c, rfl⟩ | ⟨payload, u, hu, rfl⟩ := exec_eq_next h
  · exact replyError_params c s
  · exact hu.params

theorem dispatch_params {p : Packet} {s t : State} (h : dispatch p s = .next t) : t.params = s.params := by
  obtain ⟨c, -, hc⟩ | ⟨i, -, hi⟩ := dispatch_cases p s
  · obtain rfl : t = replyError c s := Host.Outcome.next.inj (h.symm.trans hc)
    exact replyError_params c s
  · exact exec_params (hi.symm.trans h)

theorem byteStep_params {b : Byte} {s t : State} (h : byteStep b s = .next t) : t.params = s.params := by
  have hframe := frameByte_params b s
  obtain hb | ⟨u, p, hb, hp⟩ := byteStep_eq_next h
  · rwa [hb] at hframe
  · rw [hb] at hframe
    exact (dispatch_params hp).trans hframe

theorem drain_params {bs : List Byte} {s t : State} (h : drain bs s = .next t) : t.params = s.params :=
  drain_preserves (P := fun u => u.params = s.params) (fun _ _ _ hu hb => (byteStep_params hb).trans hu) bs rfl h

theorem step_params {s t : State} (h : step s = .next t) : t.params = s.params := by
  obtain ⟨-, rfl⟩ | ⟨now, rx, rest, -, hbytes⟩ | ⟨rest, -, rfl⟩ := step_eq_next h
  · rfl
  · simpa using drain_params hbytes
  · rfl

/-- Settles O53: the idle step and reset copy the parameters, and no part of a tick writes them. -/
theorem stepKeepsParameters : Obligations.StepKeepsParameters := by
  unfold Obligations.StepKeepsParameters
  exact fun _ _ => step_params

/-! ### Reset -/

/-- The device's parameters are legal whatever their values: the types of the opaque constants bound them (R7). -/
theorem device_wf : Config.device.wf = true := by
  have htimeout : (Config.deviceFrameTimeout.setWidth 32).toNat < 2 ^ 31 := by
    rw [BitVec.toNat_setWidth_of_le (by decide)]
    exact Config.deviceFrameTimeout.isLt
  have hping : ((List.range Config.devicePingLength.val).map Config.devicePingByte).length ≤ 32 := by
    rw [List.length_map, List.length_range]
    exact Nat.le_of_lt_succ Config.devicePingLength.isLt
  have hpulse : (BitVec.ofNat 16 (Config.pwMin + Config.devicePwInitOffset.val)).toNat
      = 500 + Config.devicePwInitOffset.val := by
    have hoffset := Config.devicePwInitOffset.isLt
    rw [BitVec.toNat_ofNat, Config.pwMin]
    exact Nat.mod_eq_of_lt (by omega)
  refine (Config.Params.wf_iff _).mpr ⟨htimeout, hping, ?_⟩
  have hoffset := Config.devicePwInitOffset.isLt
  simp only [Config.device, hpulse]
  omega

/-- Reset with legal parameters meets the invariant, whatever inputs are still to come (R34, R240). -/
theorem resetWith_inv {p : Config.Params} (hp : p.wf = true) (ins : List Input) : (State.resetWith p ins).Inv := by
  obtain ⟨-, -, hpulse⟩ := (Config.Params.wf_iff p).mp hp
  refine ⟨hp, fun i => ?_, fun i => ?_, Framer.ok_hunt rfl⟩
  · rw [State.resetWith_getPos]
    exact (legalPulse_iff _).mpr hpulse
  · rw [State.resetWith_getMove]
    decide

/-- Settles O51: the device's parameters are legal and reset leaves no move and no open frame. -/
theorem resetMeetsInvariant : Obligations.ResetMeetsInvariant := by
  unfold Obligations.ResetMeetsInvariant
  exact resetWith_inv device_wf []

end Sys2Proof.Machine
end

section
/-! SUPPORT. Every step has a next state, and every step keeps the invariant of Safety: one lemma per operation, from
the motion step and the framer byte up to the step. From these the statements about the state (spec/10_state.md):
its ranges, the writers of `pos` and `mv`, reset. -/

open Sys2Proof.Claims

namespace Sys2Proof.Machine

/-! ### The next state always exists (spec/60_exceptions.md R214) -/

theorem exec_total (i : Instr) (s : State) : ∃ t, exec i s = .next t := by
  obtain ⟨c, h⟩ | ⟨payload, u, -, h⟩ := exec_cases i s
  · exact ⟨_, h⟩
  · exact ⟨_, h⟩

theorem dispatch_total (p : Packet) (s : State) : ∃ t, dispatch p s = .next t := by
  obtain ⟨c, -, h⟩ | ⟨i, -, h⟩ := dispatch_cases p s
  · exact ⟨_, h⟩
  · rw [h]
    exact exec_total i s

theorem byteStep_total (b : Byte) (s : State) : ∃ t, byteStep b s = .next t := by
  unfold byteStep
  split
  · exact ⟨_, rfl⟩
  · exact dispatch_total _ _

theorem drain_total (bs : List Byte) (s : State) : ∃ t, drain bs s = .next t := by
  induction bs generalizing s with
  | nil => exact ⟨s, rfl⟩
  | cons b bs ih =>
    obtain ⟨u, hu⟩ := byteStep_total b s
    rw [drain_cons, hu, andThen_next]
    exact ih u

theorem step_total (s : State) : ∃ t, step s = .next t := by
  unfold step runInput
  split
  · exact ⟨_, rfl⟩
  · exact drain_total _ _
  · exact ⟨_, rfl⟩

/-! ### One motion step (spec/42_motion.md R172-R176) -/

/-- A step within reach of the target snaps to it and ends the move; any other advances by exactly `step` and stays
short of the target, so the 16-bit sums never wrap. -/
theorem stepMove_cases (now : Time) (m : Move) :
    ((distance m).natAbs ≤ m.step.toNat
        ∧ stepMove now m = { m with current := m.target, active := false, last := now })
      ∨ ∃ v : Half, stepMove now m = { m with current := v, last := now }
        ∧ (v.toNat = m.current.toNat + m.step.toNat ∧ v.toNat < m.target.toNat
          ∨ v.toNat + m.step.toNat = m.current.toNat ∧ m.target.toNat < v.toNat) := by
  unfold stepMove
  split
  · next hnear => exact .inl ⟨hnear, rfl⟩
  · next hfar =>
    unfold distance at hfar
    split
    · next hup =>
      unfold distance at hup
      exact .inr ⟨_, rfl, .inl (by bv_omega)⟩
    · next hdown =>
      unfold distance at hdown
      exact .inr ⟨_, rfl, .inr (by bv_omega)⟩

/-- A step of a legal active move ends between its two legal ends (R24). -/
theorem stepMove_current_legal (now : Time) {m : Move} (hok : m.ok = true) (hactive : m.active = true) :
    legalPulse (stepMove now m).current = true := by
  obtain ⟨htarget, hcurrent, -, -⟩ := (Move.ok_iff m).mp hok hactive
  obtain ⟨-, h⟩ | ⟨v, h, hv⟩ := stepMove_cases now m
  · rwa [h]
  · rw [h]
    rw [legalPulse_iff] at htarget hcurrent ⊢
    simp only
    omega

theorem stepMove_ok (now : Time) {m : Move} (hok : m.ok = true) (hactive : m.active = true) :
    (stepMove now m).ok = true := by
  have hlegal := stepMove_current_legal now hok hactive
  obtain ⟨htarget, -, hstep⟩ := (Move.ok_iff m).mp hok hactive
  obtain ⟨-, h⟩ | ⟨v, h, -⟩ := stepMove_cases now m
  · rw [h]
    rfl
  · rw [h] at hlegal ⊢
    exact (Move.ok_iff _).mpr fun _ => ⟨htarget, hlegal, hstep⟩

/-- A step that leaves the move Idle has put `current` on the target (R173). -/
theorem stepMove_current_of_idle {now : Time} {m : Move} (hactive : m.active = true)
    (hidle : (stepMove now m).active = false) : (stepMove now m).current = m.target := by
  obtain ⟨-, h⟩ | ⟨v, h, -⟩ := stepMove_cases now m
  · rw [h]
  · rw [h] at hidle
    exact absurd (hactive.symm.trans hidle) (by decide)

/-- A motion step of channel `i` does nothing, or the channel was Moving and due and takes one step of its move. -/
theorem motionStep_eq_self_or_eligible (i : Channel) (s : State) :
    motionStep i s = s ∨ eligible i s
      ∧ motionStep i s = (s.setMove i (stepMove s.now (s.getMove i))).setPos i
          (stepMove s.now (s.getMove i)).current := by
  obtain ⟨-, h⟩ | ⟨hactive, hdue, h⟩ := motionStep_cases i s
  · exact .inl h
  · exact .inr ⟨⟨hactive, (due_iff _ _).mp hdue⟩, h⟩

/-- The motion step of one channel leaves the position of every other (R182). -/
theorem motionStep_getPos_ne {i j : Channel} (s : State) (h : j ≠ i) : (motionStep i s).getPos j = s.getPos j := by
  obtain hs | ⟨-, hs⟩ := motionStep_eq_self_or_eligible i s <;> simp [hs, h]

/-- The motion step of one channel leaves the move of every other (R182). -/
theorem motionStep_getMove_ne {i j : Channel} (s : State) (h : j ≠ i) : (motionStep i s).getMove j = s.getMove j := by
  obtain hs | ⟨-, hs⟩ := motionStep_eq_self_or_eligible i s <;> simp [hs, h]

/-- A motion step that changes `pos[j]` or `mv[j]` is channel `j`'s own, taken while Moving and due. -/
theorem motionStep_of_changed {i j : Channel} {s : State}
    (h : (motionStep i s).getPos j ≠ s.getPos j ∨ (motionStep i s).getMove j ≠ s.getMove j) :
    j = i ∧ eligible i s ∧ motionStep i s = (s.setMove i (stepMove s.now (s.getMove i))).setPos i
      (stepMove s.now (s.getMove i)).current := by
  obtain hsame | ⟨hdue, hstep⟩ := motionStep_eq_self_or_eligible i s
  · simp [hsame] at h
  · refine ⟨?_, hdue, hstep⟩
    by_contra hji
    exact h.elim (· (motionStep_getPos_ne s hji)) (· (motionStep_getMove_ne s hji))

/-! ### The framer's writes keep `pos` and `mv` -/

@[simp] theorem frameByte_pos (b : Byte) (s : State) : (frameByte b s).1.pos = s.pos := by
  obtain ⟨f, e, h⟩ := frameByte_frame b s
  rw [h]

@[simp] theorem frameByte_mv (b : Byte) (s : State) : (frameByte b s).1.mv = s.mv := by
  obtain ⟨f, e, h⟩ := frameByte_frame b s
  rw [h]

@[simp] theorem timeoutCheck_pos (s : State) : (timeoutCheck s).pos = s.pos := by
  obtain h | ⟨-, h⟩ := timeoutCheck_cases s <;> simp [h]

@[simp] theorem timeoutCheck_mv (s : State) : (timeoutCheck s).mv = s.mv := by
  obtain h | ⟨-, h⟩ := timeoutCheck_cases s <;> simp [h]

/-! ### What a command writes -/

/-- An accepted command that changes `pos[j]` is SET_SERVO on channel `j`. -/
theorem Accepted.setServo_of_getPos_ne {i : Instr} {s u : State} {j : Channel} (h : Accepted i s u)
    (hne : u.getPos j ≠ s.getPos j) : ∃ ch pw, i = .setServo ch pw ∧ ch.toNat = j.val ∧ u.getPos j = pw := by
  cases h with
  | @setServo ch k pw _ hch _ =>
    obtain rfl : j = k := by
      by_contra hjk
      exact hne (State.getPos_setPos_ne s pw hjk)
    exact ⟨ch, pw, rfl, hch, State.getPos_setPos_same s j pw⟩
  | _ => exact absurd rfl hne

/-- An accepted command that changes `mv[j]` is MOVE_STEPPED on channel `j`, or STOP_MOVE on it or on all. -/
theorem Accepted.move_of_getMove_ne {i : Instr} {s u : State} {j : Channel} (h : Accepted i s u)
    (hne : u.getMove j ≠ s.getMove j) :
    (∃ ch target size delay, i = .moveStepped ch target size delay ∧ ch.toNat = j.val
        ∧ (u.getMove j).active = true)
      ∨ ∃ ch, i = .stopMove ch ∧ (ch = 0xFF ∨ ch.toNat = j.val)
        ∧ u.getMove j = { s.getMove j with active := false } := by
  cases h with
  | @moveStepped ch k target size delay _ hch =>
    obtain rfl : j = k := by
      by_contra hjk
      exact hne (State.getMove_setMove_ne s _ hjk)
    exact .inl ⟨ch, target, size, delay, rfl, hch, by simp [startedMove]⟩
  | @stopMove ch k _ hch =>
    obtain rfl : j = k := by
      by_contra hjk
      exact hne (by rw [clearActive_getMove, if_neg hjk])
    exact .inr ⟨ch, rfl, .inr hch, by rw [clearActive_getMove, if_pos rfl]⟩
  | stopAll => exact .inr ⟨_, rfl, .inl rfl, clearAllActive_getMove j s⟩
  | _ => exact absurd rfl hne

/-! ### The invariant through the state's operations and the motion phase -/

section

variable {s : State}

theorem State.setPos_inv (hs : s.Inv) (i : Channel) {v : Half} (hv : legalPulse v = true) : (s.setPos i v).Inv := by
  obtain ⟨hparams, hpos, hmv, hframer⟩ := hs
  refine ⟨hparams, fun j => ?_, hmv, hframer⟩
  by_cases hj : j = i
  · rwa [hj, getPos_setPos_same]
  · rw [getPos_setPos_ne s v hj]
    exact hpos j

theorem State.setMove_inv (hs : s.Inv) (i : Channel) {m : Move} (hm : m.ok = true) : (s.setMove i m).Inv := by
  obtain ⟨hparams, hpos, hmv, hframer⟩ := hs
  refine ⟨hparams, hpos, fun j => ?_, hframer⟩
  by_cases hj : j = i
  · rwa [hj, getMove_setMove_same]
  · rw [getMove_setMove_ne s m hj]
    exact hmv j

theorem State.setFramer_inv (hs : s.Inv) {f : Framer} (hf : f.ok = true) : (s.setFramer f).Inv := by
  obtain ⟨hparams, hpos, hmv, -⟩ := hs
  exact ⟨hparams, hpos, hmv, hf⟩

/-- The event record is no part of the invariant. -/
theorem State.record_inv (hs : s.Inv) (c : Cause) : (s.record c).Inv := hs

/-- The emitted bytes are no part of the invariant. -/
theorem replyOk_inv (hs : s.Inv) (payload : List Byte) : (replyOk payload s).Inv := hs

theorem replyError_inv (hs : s.Inv) (c : Cause) : (replyError c s).Inv := hs

theorem dropFrame_inv (hs : s.Inv) (c : Cause) : (dropFrame c s).Inv :=
  State.setFramer_inv (State.record_inv hs c) (Framer.ok_hunt rfl)

theorem clearActive_inv (hs : s.Inv) (i : Channel) : (clearActive i s).Inv := State.setMove_inv hs i rfl

theorem clearAllActive_inv (hs : s.Inv) : (clearAllActive s).Inv :=
  clearActive_inv (clearActive_inv (clearActive_inv (clearActive_inv hs 0) 1) 2) 3

theorem motionStep_inv (hs : s.Inv) (i : Channel) : (motionStep i s).Inv := by
  obtain h | ⟨⟨hactive, -⟩, h⟩ := motionStep_eq_self_or_eligible i s
  · rwa [h]
  · have ⟨_, _, hmv, _⟩ := hs
    rw [h]
    exact State.setPos_inv (State.setMove_inv hs i (stepMove_ok s.now (hmv i) hactive)) i
      (stepMove_current_legal s.now (hmv i) hactive)

theorem motionPhase_inv (hs : s.Inv) : (motionPhase s).Inv :=
  motionStep_inv (motionStep_inv (motionStep_inv (motionStep_inv hs 0) 1) 2) 3

theorem timeoutCheck_inv (hs : s.Inv) : (timeoutCheck s).Inv := by
  obtain h | ⟨-, h⟩ := timeoutCheck_cases s
  · rwa [h]
  · rw [h]
    exact dropFrame_inv hs .frameTimeout

theorem beginTick_inv (hs : s.Inv) (now : Time) : (beginTick now s).Inv := hs

theorem beforeBytes_inv (hs : s.Inv) (now : Time) : (beforeBytes now s).Inv :=
  timeoutCheck_inv (motionPhase_inv (beginTick_inv hs now))

end

/-! ### The framer's registers through one byte (spec/10_state.md R28) -/

section

variable {s : State} (b : Byte)

theorem huntByte_framer_ok (h : s.framer.ok = true) : (huntByte b s).framer.ok = true := by
  unfold huntByte
  split
  · exact (Framer.ok_len rfl).mpr ⟨rfl, rfl⟩
  · exact h

theorem lenByte_framer_ok (h : s.framer.ok = true) (hst : s.framer.fstate = .len) :
    (lenByte b s).framer.ok = true := by
  obtain ⟨hidx, -⟩ := (Framer.ok_len hst).mp h
  unfold lenByte Config.maxPayload
  split
  · exact Framer.ok_hunt rfl
  · next hb =>
    have hlen : (b.setWidth 6).toNat = b.toNat := by
      rw [BitVec.toNat_setWidth]
      omega
    refine (Framer.ok_cmd rfl).mpr ⟨?_, hidx, ?_⟩
    · simp only [State.setFramer_framer, hlen]
      omega
    · apply BitVec.eq_of_toNat_eq
      simp only [State.setFramer_framer]
      rw [BitVec.toNat_setWidth_of_le (by decide), hlen]

theorem cmdByte_framer_ok (h : s.framer.ok = true) (hst : s.framer.fstate = .cmd) :
    (cmdByte b s).framer.ok = true := by
  obtain ⟨hlen, hidx, hacc⟩ := (Framer.ok_cmd hst).mp h
  have hnone : (cmdByte b s).framer.received = [] := by simp [Framer.received, cmdByte, hidx]
  have hsum : (cmdByte b s).framer.facc = (cmdByte b s).framer.received.foldl (· ^^^ ·)
      (s.framer.flen.setWidth 8 ^^^ b) := by
    rw [hnone, ← hacc]
    rfl
  by_cases hzero : s.framer.flen = 0#6
  · exact (Framer.ok_csum (by simp [cmdByte, hzero])).mpr ⟨hlen, hidx.trans hzero.symm, hsum⟩
  · have hidx' : (cmdByte b s).framer.fidx = 0 := hidx
    refine (Framer.ok_pay (by simp [cmdByte, hzero])).mpr ⟨hlen, ?_, hsum⟩
    rw [hidx']
    exact Nat.pos_of_ne_zero fun h0 => hzero (BitVec.eq_of_toNat_eq h0)

/-- A payload byte is appended to what was received (R105). -/
theorem payByte_received (hidx : s.framer.fidx.toNat < 32) :
    (payByte b s).framer.received = s.framer.received ++ [b] := by
  have hnext : (payByte b s).framer.fidx.toNat = s.framer.fidx.toNat + 1 := by
    simp only [payByte, State.setFramer_framer]
    bv_omega
  have hlen : s.framer.fidx.toNat < s.framer.fbuf.toList.length := by simpa using hidx
  unfold Framer.received
  rw [hnext]
  simp only [payByte, State.setFramer_framer]
  rw [Vector.toList_setIfInBounds, List.set_eq_take_append_cons_drop, if_pos hlen]
  simp [List.take_append, hidx.le]

theorem payByte_framer_ok (h : s.framer.ok = true) (hst : s.framer.fstate = .pay) :
    (payByte b s).framer.ok = true := by
  obtain ⟨hlen, hidx, hacc⟩ := (Framer.ok_pay hst).mp h
  have hsum : (payByte b s).framer.facc = (payByte b s).framer.received.foldl (· ^^^ ·)
      (s.framer.flen.setWidth 8 ^^^ s.framer.fcmd) := by
    rw [payByte_received b (hidx.trans_le hlen), List.foldl_append, ← hacc]
    rfl
  by_cases hlast : s.framer.fidx + 1#6 = s.framer.flen
  · exact (Framer.ok_csum (by simp [payByte, hlast])).mpr ⟨hlen, hlast, hsum⟩
  · refine (Framer.ok_pay (by simp [payByte, hlast])).mpr ⟨hlen, ?_, hsum⟩
    simp only [payByte, State.setFramer_framer]
    bv_omega

theorem csumByte_framer_ok (h : s.framer.ok = true) (hst : s.framer.fstate = .csum) :
    (csumByte b s).framer.ok = true :=
  (Framer.ok_fin rfl).mpr ((Framer.ok_csum hst).mp h)

/-- The END byte always brings the framer back to HUNT (R107). -/
theorem finByte_framer (s : State) : (finByte b s).1.framer = s.framer.resync := by
  unfold finByte
  split
  · rfl
  · split <;> rfl

theorem frameByte_framer_ok (h : s.framer.ok = true) : (frameByte b s).1.framer.ok = true := by
  cases hst : s.framer.fstate with
  | hunt => rw [frameByte_hunt hst]; exact huntByte_framer_ok b h
  | len => rw [frameByte_len hst]; exact lenByte_framer_ok b h hst
  | cmd => rw [frameByte_cmd hst]; exact cmdByte_framer_ok b h hst
  | pay => rw [frameByte_pay hst]; exact payByte_framer_ok b h hst
  | csum => rw [frameByte_csum hst]; exact csumByte_framer_ok b h hst
  | fin => rw [frameByte_fin hst, finByte_framer]; exact Framer.ok_hunt rfl

end

/-! ### The invariant through a command, a byte and a step -/

section

variable {s t : State}

theorem frameByte_inv (hs : s.Inv) (b : Byte) : (frameByte b s).1.Inv := by
  have ⟨hparams, hpos, hmv, hframer⟩ := hs
  have hok := frameByte_framer_ok b hframer
  obtain ⟨f, e, h⟩ := frameByte_frame b s
  rw [h] at hok ⊢
  exact ⟨hparams, hpos, hmv, hok⟩

/-- MOVE_STEPPED starts a legal move: target and step are converted into range, and it starts from a legal
position (R147, R136, R137). -/
theorem startedMove_ok (hs : s.Inv) (i : Channel) (target : Half) (size : Byte) (delay : Half) :
    (startedMove i target size delay s).ok = true := by
  have ⟨_, hpos, _, _⟩ := hs
  have htarget : legalPulse (degToPw target) = true := by
    have hspan := degToSpan_le target.toNat
    rw [legalPulse_iff, degToPw, BitVec.toNat_ofNat, Config.pwMin]
    omega
  have hstep : 1 ≤ (stepToPw size).toNat ∧ (stepToPw size).toNat ≤ 2000 := by
    have hspan := degToSpan_le size.toNat
    rw [stepToPw, BitVec.toNat_ofNat]
    split <;> omega
  exact (Move.ok_iff _).mpr fun _ => ⟨htarget, hpos i, hstep⟩

theorem Accepted.inv {i : Instr} (h : Accepted i s t) (hs : s.Inv) : t.Inv := by
  cases h with
  | ping | getServo | getAll | getMoveStatus => exact hs
  | setServo _ _ hpw =>
    exact State.setPos_inv hs _ ((legalPulse_iff _).mpr ((pulseInRange_iff _).mp hpw))
  | moveStepped => exact State.setMove_inv hs _ (startedMove_ok hs _ _ _ _)
  | stopMove => exact clearActive_inv hs _
  | stopAll => exact clearAllActive_inv hs

theorem exec_inv {i : Instr} (hs : s.Inv) (h : exec i s = .next t) : t.Inv := by
  obtain ⟨c, rfl⟩ | ⟨payload, u, hu, rfl⟩ := exec_eq_next h
  · exact replyError_inv hs c
  · exact replyOk_inv (hu.inv hs) payload

theorem dispatch_inv {p : Packet} (hs : s.Inv) (h : dispatch p s = .next t) : t.Inv := by
  obtain ⟨c, -, hc⟩ | ⟨i, -, hi⟩ := dispatch_cases p s
  · obtain rfl : t = replyError c s := Host.Outcome.next.inj (h.symm.trans hc)
    exact replyError_inv hs c
  · exact exec_inv hs (hi.symm.trans h)

theorem byteStep_inv {b : Byte} (hs : s.Inv) (h : byteStep b s = .next t) : t.Inv := by
  have hframe := frameByte_inv hs b
  obtain hb | ⟨u, p, hb, hp⟩ := byteStep_eq_next h
  · rwa [hb] at hframe
  · rw [hb] at hframe
    exact dispatch_inv hframe hp

theorem drain_inv {bs : List Byte} (hs : s.Inv) (h : drain bs s = .next t) : t.Inv :=
  drain_preserves (fun _ _ _ => byteStep_inv) bs hs h

theorem step_inv (hs : s.Inv) (h : step s = .next t) : t.Inv := by
  obtain ⟨-, rfl⟩ | ⟨now, rx, rest, -, hbytes⟩ | ⟨rest, -, rfl⟩ := step_eq_next h
  · exact hs
  · have hstart : State.Inv { s with inputs := rest } := hs
    exact drain_inv (beforeBytes_inv hstart now) hbytes
  · obtain ⟨hparams, -⟩ := hs
    exact resetWith_inv hparams rest

end

/-- Settles O52: the motion phase, the timeout check, every framer rule, every command and reset keep the
invariant. -/
theorem stepKeepsInvariant : Obligations.StepKeepsInvariant := by
  unfold Obligations.StepKeepsInvariant
  exact fun _ _ => step_inv

/-! ### What an observer sees (spec/44_tick.md R206) -/

theorem observe_succ {s t : State} (k : Nat) (h : step s = .next t) :
    observe (k + 1) s = (t.tx, t.pos) :: observe k t := by
  simp only [observe, h]

/-- The block never stops: `k` steps give `k` observations (R214). -/
theorem observe_length (k : Nat) (s : State) : (observe k s).length = k := by
  induction k generalizing s with
  | zero => rfl
  | succ k ih =>
    obtain ⟨t, ht⟩ := step_total s
    rw [observe_succ k ht, List.length_cons, ih]

/-- What is seen along a run from an invariant state comes from invariant states. -/
theorem exists_inv_of_mem_observe {k : Nat} {s : State} {seen : List Byte × Vector Half 4} (hs : s.Inv)
    (hseen : seen ∈ observe k s) : ∃ t : State, t.Inv ∧ seen = (t.tx, t.pos) := by
  induction k generalizing s with
  | zero => cases hseen
  | succ k ih =>
    obtain ⟨t, ht⟩ := step_total s
    rw [observe_succ k ht] at hseen
    obtain hfirst | hlater := List.mem_cons.mp hseen
    · exact ⟨t, step_inv hs ht, hfirst⟩
    · exact ih (step_inv hs ht) hlater

/-- Settles O54: every step goes on and keeps the invariant, and the invariant bounds the actuator outputs. -/
theorem actuatorsStayInRange : Obligations.ActuatorsStayInRange := by
  unfold Obligations.ActuatorsStayInRange
  refine fun k s hs => ⟨observe_length k s, fun seen hseen i => ?_⟩
  obtain ⟨t, ⟨-, hpos, -⟩, rfl⟩ := exists_inv_of_mem_observe hs hseen
  exact (legalPulse_iff _).mp (hpos i)

/-! ### The writers of `pos` and `mv` (spec/10_state.md R23, R30) -/

/-- Settles O21: the command and the motion step that write `pos[j]`, and the operations that write none. -/
theorem positionStoreHasTwoWriters : Obligations.PositionStoreHasTwoWriters := by
  unfold Obligations.PositionStoreHasTwoWriters
  refine ⟨fun i s t j h hne => ?_, fun i s j hne => ?_, frameByte_pos, timeoutCheck_pos⟩
  · obtain ⟨c, rfl⟩ | ⟨payload, u, hu, rfl⟩ := exec_eq_next h
    · exact absurd rfl hne
    · exact hu.setServo_of_getPos_ne hne
  · obtain ⟨rfl, hdue, hstep⟩ := motionStep_of_changed (.inl hne)
    exact ⟨rfl, hdue, by simp [hstep]⟩

/-- Settles O22: the commands and the motion step that write `mv[j]`, and the operations that write none. -/
theorem activeFlagWriters : Obligations.ActiveFlagWriters := by
  unfold Obligations.ActiveFlagWriters
  refine ⟨fun i s t j h hne => ?_, fun i s j hne => ?_, frameByte_mv, timeoutCheck_mv⟩
  · obtain ⟨c, rfl⟩ | ⟨payload, u, hu, rfl⟩ := exec_eq_next h
    · exact absurd rfl hne
    · exact hu.move_of_getMove_ne hne
  · obtain ⟨rfl, hdue, hstep⟩ := motionStep_of_changed (.inr hne)
    have ⟨hactive, _⟩ := hdue
    refine ⟨rfl, hdue, ?_⟩
    rw [hstep, State.getMove_setPos, State.getMove_setMove_same]
    exact stepMove_current_of_idle hactive

/-! ### The reset event (spec/70_reset_and_hazards.md R240) -/

theorem step_reset {s : State} {later : List Input} (h : s.inputs = .reset :: later) :
    step s = .next (State.resetWith s.params later) := by
  simp only [step, runInput, h]

/-- Settles O49: the reset event and the machine's start are one function of the parameters and the later inputs. -/
theorem resetGivesTheResetValues : Obligations.ResetGivesTheResetValues := by
  unfold Obligations.ResetGivesTheResetValues
  refine ⟨fun s later h => ⟨_, step_reset h, rfl, rfl, rfl, rfl, fun i => ?_⟩, fun i => ?_, rfl, rfl⟩
  · exact ⟨State.resetWith_getPos _ _ i, State.resetWith_getPos _ _ i, State.resetWith_getMove _ _ i⟩
  · exact ⟨State.resetWith_getPos _ _ i, State.resetWith_getMove _ _ i⟩

end Sys2Proof.Machine
end

section
/-! SUPPORT. Which commands are accepted: the range checks of spec/30_encoding.md R77 as the command rules make them,
what an accepted command answers, and that a command with a field out of range writes nothing
(spec/20_memory.md R55, spec/60_exceptions.md R213). -/

open Sys2Proof.Claims

namespace Sys2Proof.Machine

/-! ### The model's replies in the words of the statements -/

theorem frame_eq_frameOf (code : Byte) (payload : List Byte) : frame code payload = frameOf code payload := rfl

theorem replyError_eq_saidError (c : Cause) (s : State) : replyError c s = saidError c s := rfl

/-! ### The operand checks decide the channel and the pulse width -/

theorem exists_channel_of_inRange {ch : Byte} (h : channelInRange ch = true) : ∃ j : Channel, ch.toNat = j.val :=
  ⟨⟨ch.toNat, (channelInRange_iff ch).mp h⟩, rfl⟩

theorem channelOf_eq_none_of_not_inRange {ch : Byte} (h : channelInRange ch = false) : channelOf ch = none := by
  rw [← Bool.not_eq_true, channelInRange_iff, Nat.not_lt] at h
  exact channelOf_eq_none.mpr h

theorem Instr.wf_setServo (ch : Byte) (pw : Half) :
    (Instr.setServo ch pw).wf = (channelInRange ch && pulseInRange pw) :=
  Bool.and_assoc _ _ _

theorem Instr.wf_stopMove (ch : Byte) :
    (Instr.stopMove ch).wf = (channelInRange ch || decide (ch = Config.broadcast)) := rfl

/-- No channel index is the STOP_MOVE sentinel (R77). -/
theorem ne_broadcast_of_channel {ch : Byte} {j : Channel} (h : ch.toNat = j.val) : ch ≠ Config.broadcast := by
  rintro rfl
  exact absurd (h.trans_lt j.isLt) (by decide)

/-! ### A command whose fields are in range -/

theorem exists_accepted_of_wf {i : Instr} (h : i.wf = true) (s : State) : ∃ u, Accepted i s u := by
  cases i with
  | ping => exact ⟨_, .ping s⟩
  | getAll => exact ⟨_, .getAll s⟩
  | getMoveStatus => exact ⟨_, .getMoveStatus s⟩
  | getServo ch =>
    obtain ⟨j, hch⟩ := exists_channel_of_inRange h
    exact ⟨_, .getServo s hch⟩
  | setServo ch pw =>
    rw [Instr.wf_setServo, Bool.and_eq_true] at h
    obtain ⟨hrange, hpw⟩ := h
    obtain ⟨j, hch⟩ := exists_channel_of_inRange hrange
    exact ⟨_, .setServo s hch hpw⟩
  | moveStepped ch target size delay =>
    obtain ⟨j, hch⟩ := exists_channel_of_inRange h
    exact ⟨_, .moveStepped s hch⟩
  | stopMove ch =>
    rw [Instr.wf_stopMove, Bool.or_eq_true, decide_eq_true_eq] at h
    obtain hrange | rfl := h
    · obtain ⟨j, hch⟩ := exists_channel_of_inRange hrange
      exact ⟨_, .stopMove s hch⟩
    · exact ⟨_, .stopAll s⟩

/-- An accepted command makes its effect and then answers OK. -/
theorem Accepted.exec_eq {i : Instr} {s u : State} (h : Accepted i s u) :
    ∃ payload, exec i s = .next (replyOk payload u) := by
  cases h with
  | ping | getAll | getMoveStatus | stopAll => exact ⟨_, rfl⟩
  | @getServo ch j _ hch =>
    exact ⟨ch :: be16 (s.getPos j), by simp only [exec, execGetServo, channelOf_eq_some.mpr hch]⟩
  | setServo _ hch hpw => exact ⟨[], by simp only [exec, execSetServo, channelOf_eq_some.mpr hch, if_pos hpw]⟩
  | moveStepped _ hch => exact ⟨[], by simp only [exec, execMoveStepped, channelOf_eq_some.mpr hch]⟩
  | stopMove _ hch =>
    exact ⟨[], by simp only [exec, execStopMove, if_neg (ne_broadcast_of_channel hch), channelOf_eq_some.mpr hch]⟩

theorem Accepted.tx {i : Instr} {s u : State} (h : Accepted i s u) : u.tx = s.tx := by
  cases h <;> rfl

theorem Accepted.events {i : Instr} {s u : State} (h : Accepted i s u) : u.events = s.events := by
  cases h <;> rfl

/-! ### A command with a field out of range -/

/-- A field out of range is answered with ERROR and nothing else is written (R135, R141, R150). -/
theorem exec_eq_replyError_of_not_wf {i : Instr} (h : i.wf = false) (s : State) :
    ∃ c : Cause, (c = .badChannel ∨ c = .badPulseWidth) ∧ exec i s = .next (replyError c s) := by
  cases i with
  | ping | getAll | getMoveStatus => cases h
  | getServo ch =>
    exact ⟨.badChannel, .inl rfl, by simp only [exec, execGetServo, channelOf_eq_none_of_not_inRange h]⟩
  | setServo ch pw =>
    cases hch : channelOf ch with
    | none => exact ⟨.badChannel, .inl rfl, by simp only [exec, execSetServo, hch]⟩
    | some j =>
      rw [Instr.wf_setServo, Bool.and_eq_false_iff] at h
      obtain hrange | hpw := h
      · cases hch.symm.trans (channelOf_eq_none_of_not_inRange hrange)
      · exact ⟨.badPulseWidth, .inr rfl, by simp only [exec, execSetServo, hch, hpw, Bool.false_eq_true, if_false]⟩
  | moveStepped ch target size delay =>
    exact ⟨.badChannel, .inl rfl, by simp only [exec, execMoveStepped, channelOf_eq_none_of_not_inRange h]⟩
  | stopMove ch =>
    rw [Instr.wf_stopMove, Bool.or_eq_false_iff, decide_eq_false_iff_not] at h
    obtain ⟨hrange, hall⟩ := h
    exact ⟨.badChannel, .inl rfl, by
      simp only [exec, execStopMove, if_neg hall, channelOf_eq_none_of_not_inRange hrange]⟩

/-- Settles O18: fields in range make the command accepted, and its effect touches neither `tx` nor the event record;
a field out of range leaves only the ERROR answer. -/
theorem acceptedExactlyWhenWellFormed : Obligations.AcceptedExactlyWhenWellFormed := by
  unfold Obligations.AcceptedExactlyWhenWellFormed
  refine fun i s => ⟨fun hwf => ?_, fun hwf => ?_⟩
  · obtain ⟨u, hu⟩ := exists_accepted_of_wf hwf s
    obtain ⟨payload, hexec⟩ := hu.exec_eq
    refine ⟨_, payload, hexec, ?_, ?_⟩
    · rw [replyOk_tx, hu.tx, frame_eq_frameOf, Config.respOk]
    · rw [replyOk_events, hu.events]
  · obtain ⟨c, hc, hexec⟩ := exec_eq_replyError_of_not_wf hwf s
    exact ⟨c, hc, by rw [hexec, replyError_eq_saidError]⟩

end Sys2Proof.Machine
end

section
/-! SUPPORT. The decoder is the inverse of the encoder: the one frame of a packet (spec/30_encoding.md R70-R73, R82,
R83), the one packet of a command (R75, R76, R79, spec/41_dispatcher.md R130), and from the two the one frame of a
command. -/

namespace Sys2Proof

/-! ### A frame and its packet -/

/-- The frame of a payload that fits, received with more bytes after it, gives the packet and leaves those bytes. -/
theorem decodeFrame_frame (code : Byte) {payload : List Byte} (rest : List Byte) (h : payload.length ≤ 32) :
    decodeFrame (frame code payload ++ rest) = .ok (⟨code, payload⟩, rest) := by
  have hlen : (lengthByte payload).toNat = payload.length := lengthByte_toNat (h.trans (by decide))
  have hmax : ¬ Config.maxPayload < payload.length := Nat.not_lt.mpr h
  simp [frame, decodeFrame, hlen, hmax]

/-- The payload that a length byte cuts off has that length byte (R71). -/
theorem lengthByte_take {len : Byte} {body : List Byte} (h : len.toNat ≤ body.length) :
    lengthByte (body.take len.toNat) = len := by
  rw [lengthByte, List.length_take_of_le h, BitVec.ofNat_toNat, BitVec.setWidth_eq]

/-- A packet comes from no other bytes than its frame, and its payload fits. -/
theorem eq_frame_of_decodeFrame {bytes rest : List Byte} {p : Packet} (h : decodeFrame bytes = .ok (p, rest)) :
    p.payload.length ≤ 32 ∧ bytes = frame p.command p.payload ++ rest := by
  unfold decodeFrame at h
  split at h
  · cases h
  next b afterStart =>
  split at h
  · cases h
  next hstart =>
  split at h
  · cases h
  next len afterLen =>
  split at h
  · cases h
  next hmax =>
  split at h
  · cases h
  next command body =>
  split at h
  next cs e after hdrop =>
    split at h
    · cases h
    next hend =>
    split at h
    · cases h
    next hsum =>
    cases h
    have hlen : len.toNat ≤ body.length := by
      have := congrArg List.length hdrop
      simp only [List.length_drop, List.length_cons] at this
      omega
    refine ⟨(List.length_take_le _ _).trans (Nat.not_lt.mp hmax), ?_⟩
    rw [frame, lengthByte_take hlen, ← not_ne_iff.mp hsum, ← not_ne_iff.mp hend, ← not_ne_iff.mp hstart]
    simp [← hdrop]
  · cases h

theorem decodeFrame_eq_ok_iff {bytes rest : List Byte} {p : Packet} :
    decodeFrame bytes = .ok (p, rest) ↔ p.payload.length ≤ 32 ∧ bytes = frame p.command p.payload ++ rest := by
  refine ⟨eq_frame_of_decodeFrame, ?_⟩
  rintro ⟨hlen, rfl⟩
  exact decodeFrame_frame p.command rest hlen

/-! ### A packet and its command -/

/-- A command's payload fits into a frame (R79). -/
theorem Instr.payload_length_le (i : Instr) : i.payload.length ≤ 32 := by
  cases i <;> simp [Instr.payload]

@[simp] theorem operands_code_payload (i : Instr) : operands i.code i.payload = some i := by
  cases i with
  | ping | getServo | getAll | stopMove | getMoveStatus => rfl
  | setServo ch pw => simp [operands, Instr.code, Instr.payload]
  | moveStepped ch target step delay => simp [operands, Instr.code, Instr.payload]

/-- The code and the payload that give a command are its own (R75, R76, R79). -/
theorem code_payload_of_operands {c : Byte} {payload : List Byte} {i : Instr} (h : operands c payload = some i) :
    c = i.code ∧ payload = i.payload := by
  unfold operands at h
  split at h
  case h_1 => split_ifs at h with hc hc hc <;> cases h <;> exact ⟨hc, rfl⟩
  case h_2 => split_ifs at h with hc hc <;> cases h <;> exact ⟨hc, rfl⟩
  case h_3 | h_4 =>
    split_ifs at h with hc
    cases h
    exact ⟨hc, by simp [Instr.payload]⟩
  case h_5 => cases h

theorem decodePacket_eq_ok_iff {p : Packet} {i : Instr} :
    decodePacket p = .ok i ↔ p = ⟨i.code, i.payload⟩ := by
  constructor
  · intro h
    unfold decodePacket at h
    split at h
    · cases h
    split at h
    · cases h
    next j hoperands =>
    cases h
    obtain ⟨hcode, hpayload⟩ := code_payload_of_operands hoperands
    rw [← hcode, ← hpayload]
  · rintro rfl
    simp [decodePacket, reqLen_code]

/-! ### A frame and its command -/

/-- A decoded command went through both decoders, the frame's and the packet's. -/
theorem decode_eq_ok_iff_packet {bytes rest : List Byte} {i : Instr} :
    decode bytes = .ok (i, rest) ↔ ∃ p, decodeFrame bytes = .ok (p, rest) ∧ decodePacket p = .ok i := by
  unfold decode
  cases decodeFrame bytes with
  | error r => simp
  | ok q =>
    obtain ⟨p, after⟩ := q
    cases hp : decodePacket p <;> simp [hp, and_comm]

/-- The decoder finds a command exactly where its encoding stands (R70-R79, R82, R83). -/
theorem decode_eq_ok_iff {bytes rest : List Byte} {i : Instr} :
    decode bytes = .ok (i, rest) ↔ bytes = encode i ++ rest := by
  simp [decode_eq_ok_iff_packet, decodePacket_eq_ok_iff, decodeFrame_eq_ok_iff, i.payload_length_le, encode]

/-- Settles O1: the frame and the packet of a command each decode to what they were made of. -/
theorem decodeEncodeRoundTrip : Obligations.DecodeEncodeRoundTrip := by
  unfold Obligations.DecodeEncodeRoundTrip
  exact fun _ _ => decode_eq_ok_iff.mpr rfl

/-- Settles O2: a packet comes only from its frame, and a command only from its packet. -/
theorem decodedBytesAreTheEncoding : Obligations.DecodedBytesAreTheEncoding := by
  unfold Obligations.DecodedBytesAreTheEncoding
  exact fun _ _ _ => decode_eq_ok_iff.mp

/-- Settles O3: each of the frames is the encoding of its command. -/
theorem sampleFramesDecode : Obligations.SampleFramesDecode := by
  unfold Obligations.SampleFramesDecode
  simp only [decode_eq_ok_iff]
  decide

end Sys2Proof
end

section
/-! SUPPORT. The framer byte by byte (spec/40_framer.md): what each byte does by the byte expected (R102-R107), the
timeout check (R108), the XOR checksum (R100), and from these the bytes of a whole frame, valid (R113) or with one
byte changed (R114). -/

open Sys2Proof.Claims

namespace Sys2Proof.Machine

/-! ### The checksum (R100) -/

theorem xorOnto_cons (a b : Byte) (bs : List Byte) : xorOnto a (b :: bs) = xorOnto (a ^^^ b) bs := rfl

theorem xorOnto_append (a : Byte) (xs ys : List Byte) : xorOnto a (xs ++ ys) = xorOnto (xorOnto a xs) ys :=
  List.foldl_append

/-- XORing the same bytes onto two start values keeps them apart. -/
theorem xorOnto_inj {a b : Byte} (bs : List Byte) : xorOnto a bs = xorOnto b bs ↔ a = b := by
  induction bs generalizing a b with
  | nil => exact Iff.rfl
  | cons x bs ih => rw [xorOnto_cons, xorOnto_cons, ih, BitVec.xor_left_inj]

/-- Replacing one byte by another value changes the XOR. -/
theorem xorOnto_replace_inj {x y : Byte} (a : Byte) (before after : List Byte) :
    xorOnto a (before ++ x :: after) = xorOnto a (before ++ y :: after) ↔ x = y := by
  rw [xorOnto_append, xorOnto_append, xorOnto_cons, xorOnto_cons, xorOnto_inj, BitVec.xor_right_inj]

theorem checksum_eq_xorOnto (len command : Byte) (payload : List Byte) :
    checksum len command payload = xorOnto (len ^^^ command) payload := rfl

/-- Settles O4: the bytes before the last XOR to the checksum, and two bytes XOR to zero exactly when equal. -/
theorem checksumCancels : Obligations.ChecksumCancels := by
  unfold Obligations.ChecksumCancels
  intro len command x payload
  have hsum : xorOnto 0 ([len, command] ++ payload ++ [x]) = checksum len command payload ^^^ x := by
    rw [xorOnto_append, xorOnto_append, checksum_eq_xorOnto]
    simp [xorOnto]
  rw [hsum]
  exact BitVec.xor_eq_zero_iff.trans eq_comm

/-! ### One byte, by the byte expected (R102-R107) -/

theorem byteStep_of_no_packet {b : Byte} {s t : State} (h : frameByte b s = (t, none)) : byteStep b s = .next t := by
  simp only [byteStep, h]

theorem byteStep_of_packet {b : Byte} {s t : State} {p : Packet} (h : frameByte b s = (t, some p)) :
    byteStep b s = dispatch p t := by
  simp only [byteStep, h]

section
variable {s : State}

theorem byteStep_hunt_start (h : s.framer.fstate = .hunt) :
    byteStep Config.startByte s
      = .next (s.setFramer { s.framer with fstate := .len, ft0 := s.now, fidx := 0, facc := 0 }) :=
  byteStep_of_no_packet (frameByte_hunt h)

theorem byteStep_hunt_other {b : Byte} (h : s.framer.fstate = .hunt) (hb : b ≠ Config.startByte) :
    byteStep b s = .next (s.record .badStartMarker) := by
  rw [byteStep_of_no_packet (frameByte_hunt h), huntByte, if_neg hb]

theorem byteStep_len_overflow {b : Byte} (h : s.framer.fstate = .len) (hb : Config.maxPayload < b.toNat) :
    byteStep b s = .next (dropFrame .lengthOverflow s) := by
  rw [byteStep_of_no_packet (frameByte_len h), lenByte, if_pos hb]

theorem byteStep_len_fits {b : Byte} (h : s.framer.fstate = .len) (hb : b.toNat ≤ Config.maxPayload) :
    byteStep b s = .next (s.setFramer { s.framer with flen := b.setWidth 6, facc := b, fstate := .cmd }) := by
  rw [byteStep_of_no_packet (frameByte_len h), lenByte, if_neg (Nat.not_lt.mpr hb)]

theorem byteStep_cmd (b : Byte) (h : s.framer.fstate = .cmd) : byteStep b s = .next (cmdByte b s) :=
  byteStep_of_no_packet (frameByte_cmd h)

theorem byteStep_pay (b : Byte) (h : s.framer.fstate = .pay) : byteStep b s = .next (payByte b s) :=
  byteStep_of_no_packet (frameByte_pay h)

theorem byteStep_csum (b : Byte) (h : s.framer.fstate = .csum) : byteStep b s = .next (csumByte b s) :=
  byteStep_of_no_packet (frameByte_csum h)

theorem byteStep_fin_bad_marker {b : Byte} (h : s.framer.fstate = .fin) (hb : b ≠ Config.endByte) :
    byteStep b s = .next (dropFrame .badEndMarker s) := by
  refine byteStep_of_no_packet ((frameByte_fin h).trans ?_)
  rw [finByte, if_pos hb]

theorem byteStep_fin_mismatch (h : s.framer.fstate = .fin) (hsum : s.framer.fcsum ≠ s.framer.facc) :
    byteStep Config.endByte s = .next (dropFrame .checksumMismatch s) := by
  refine byteStep_of_no_packet ((frameByte_fin h).trans ?_)
  rw [finByte, if_neg (not_not.mpr rfl), if_pos hsum]

theorem byteStep_fin_valid (h : s.framer.fstate = .fin) (hsum : s.framer.fcsum = s.framer.facc) :
    byteStep Config.endByte s = dispatch (heldPacket s.framer) (s.setFramer s.framer.resync) := by
  refine byteStep_of_packet ((frameByte_fin h).trans ?_)
  rw [finByte, if_neg (not_not.mpr rfl), if_neg (not_not.mpr hsum)]

end

/-- A length of at most 32 fits the six bits of `flen` (R26, R103). -/
theorem setWidth_six_toNat {b : Byte} (h : b.toNat ≤ 32) : (b.setWidth 6).toNat = b.toNat := by
  rw [BitVec.toNat_setWidth]
  omega

/-- The length byte of a payload that fits, as `flen` stores it. -/
theorem setWidth_lengthByte_toNat {payload : List Byte} (h : payload.length ≤ 32) :
    ((lengthByte payload).setWidth 6).toNat = payload.length := by
  have hbyte : (lengthByte payload).toNat = payload.length := lengthByte_toNat (h.trans (by decide))
  rw [setWidth_six_toNat (hbyte.trans_le h), hbyte]

/-! ### The bytes of a frame -/

/-- `buffer` with `bytes` written from index `k` on. -/
def storeBytes (buffer : Vector Byte 32) (k : Nat) : List Byte → Vector Byte 32
  | [] => buffer
  | b :: bytes => storeBytes (buffer.setIfInBounds k b) (k + 1) bytes

theorem storeBytes_toList (buffer : Vector Byte 32) {k : Nat} {bytes : List Byte} (h : k + bytes.length ≤ 32) :
    (storeBytes buffer k bytes).toList
      = buffer.toList.take k ++ bytes ++ buffer.toList.drop (k + bytes.length) := by
  induction bytes generalizing buffer k with
  | nil => simp [storeBytes]
  | cons b bytes ih =>
    rw [List.length_cons] at h
    have hk : k < 32 := by omega
    have htake : (buffer.toList.set k b).take (k + 1) = buffer.toList.take k ++ [b] := by
      rw [List.set_eq_take_append_cons_drop, if_pos (by simpa using hk)]
      simp [List.take_append, hk.le]
    rw [storeBytes, ih _ (by omega), Vector.toList_setIfInBounds, htake, List.drop_set_of_lt (by omega),
      List.length_cons, Nat.add_right_comm, Nat.add_assoc]
    simp

/-- While payload bytes are due or just complete, `fidx` and `flen` decide which byte is expected; so the bytes that
fill `fidx` up to `flen` are stored and summed, and the checksum is expected next (R105). -/
theorem drain_payload {s : State} (payload rest : List Byte)
    (hst : s.framer.fstate = if s.framer.fidx = s.framer.flen then .csum else .pay)
    (hlen : s.framer.fidx.toNat + payload.length = s.framer.flen.toNat) :
    drain (payload ++ rest) s = drain rest (s.setFramer { s.framer with
      fstate := .csum
      fbuf := storeBytes s.framer.fbuf s.framer.fidx.toNat payload
      facc := xorOnto s.framer.facc payload
      fidx := s.framer.flen }) := by
  induction payload generalizing s with
  | nil =>
    have hidx : s.framer.fidx = s.framer.flen := BitVec.eq_of_toNat_eq hlen
    rw [if_pos hidx] at hst
    rw [← hidx, ← hst]
    rfl
  | cons b payload ih =>
    rw [List.length_cons] at hlen
    have hidx : s.framer.fidx ≠ s.framer.flen := by
      intro he
      rw [he] at hlen
      omega
    have hnext : (s.framer.fidx + 1#6).toNat = s.framer.fidx.toNat + 1 := by bv_omega
    rw [if_neg hidx] at hst
    rw [List.cons_append, drain_cons, byteStep_pay b hst, andThen_next,
      ih rfl (by simp only [payByte, State.setFramer_framer, hnext]; omega)]
    simp only [payByte, State.setFramer_framer, hnext]
    rfl

/-- The framer registers when a frame's checksum byte is expected: the header and the payload are in, `ft0` is the
start byte's time, and `fcsum` is still the old one. -/
def awaitingChecksum (code : Byte) (payload : List Byte) (s : State) : Framer where
  fstate := .csum
  flen := (lengthByte payload).setWidth 6
  fcmd := code
  fbuf := storeBytes s.framer.fbuf 0 payload
  fidx := (lengthByte payload).setWidth 6
  facc := checksum (lengthByte payload) code payload
  fcsum := s.framer.fcsum
  ft0 := s.now

/-- From HUNT, the bytes of a frame up to its checksum. -/
theorem drain_upTo_checksum {s : State} (code : Byte) {payload : List Byte} (rest : List Byte)
    (hst : s.framer.fstate = .hunt) (hlen : payload.length ≤ 32) :
    drain (Config.startByte :: lengthByte payload :: code :: (payload ++ rest)) s
      = drain rest (s.setFramer (awaitingChecksum code payload s)) := by
  have hfits : (lengthByte payload).toNat ≤ 32 := (lengthByte_toNat (hlen.trans (by decide))).trans_le hlen
  rw [drain_cons, byteStep_hunt_start hst, andThen_next, drain_cons, byteStep_len_fits rfl hfits, andThen_next,
    drain_cons, byteStep_cmd code rfl, andThen_next, drain_payload payload rest]
  · rfl
  · simp [cmdByte, eq_comm]
  · simp [cmdByte, setWidth_lengthByte_toNat hlen]

/-- The last two bytes of a frame whose checksum byte is right dispatch the packet held (R106, R107). -/
theorem drain_right_checksum {s : State} (rest : List Byte) (hst : s.framer.fstate = .csum) :
    drain (s.framer.facc :: Config.endByte :: rest) s
      = andThen (dispatch (heldPacket s.framer) (s.setFramer s.framer.resync)) (drain rest) := by
  rw [drain_cons, byteStep_csum _ hst, andThen_next, drain_cons, byteStep_fin_valid rfl rfl]
  rfl

/-- The last two bytes of a frame whose checksum byte is wrong drop it (R106, R107). -/
theorem drain_wrong_checksum {s : State} {cs : Byte} (rest : List Byte) (hst : s.framer.fstate = .csum)
    (hsum : cs ≠ s.framer.facc) :
    drain (cs :: Config.endByte :: rest) s = drain rest (dropFrame .checksumMismatch s) := by
  rw [drain_cons, byteStep_csum _ hst, andThen_next, drain_cons, byteStep_fin_mismatch rfl hsum]
  rfl

/-- The packet held when the checksum is expected is the frame's own: `fbuf` starts with the payload. -/
theorem heldPacket_awaitingChecksum (code : Byte) {payload : List Byte} (s : State) (h : payload.length ≤ 32) :
    heldPacket (awaitingChecksum code payload s) = ⟨code, payload⟩ := by
  simp [heldPacket, awaitingChecksum, setWidth_lengthByte_toNat h,
    storeBytes_toList s.framer.fbuf (k := 0) ((Nat.zero_add _).trans_le h)]

/-- Settles O30: the framer collects the frame up to its checksum, which it has summed itself, and then dispatches. -/
theorem framerDeliversEveryFrame : Obligations.FramerDeliversEveryFrame := by
  unfold Obligations.FramerDeliversEveryFrame
  intro code payload rest s hst hlen
  refine ⟨storeBytes s.framer.fbuf 0 payload, ?_, ?_⟩
  · simpa using storeBytes_toList s.framer.fbuf (k := 0) ((Nat.zero_add _).trans_le hlen)
  · have hbytes : frameOf code payload ++ rest = Config.startByte :: lengthByte payload :: code
        :: (payload ++ checksum (lengthByte payload) code payload :: Config.endByte :: rest) := by
      simp [← frame_eq_frameOf, frame]
    rw [hbytes, drain_upTo_checksum code _ hst hlen, ← heldPacket_awaitingChecksum code s hlen]
    exact drain_right_checksum (s := s.setFramer (awaitingChecksum code payload s)) rest rfl

/-- Settles O31: one changed byte makes the sum and the checksum byte differ, so the end byte drops the frame. -/
theorem oneCorruptedByteIsCaught : Obligations.OneCorruptedByteIsCaught := by
  unfold Obligations.OneCorruptedByteIsCaught
  intro code code' cs cs' payload payload' s hst hlen hsame hcs hchange
  have hsum : cs' ≠ checksum (lengthByte payload') code' payload' := by
    rw [checksum_eq_xorOnto, lengthByte, hsame]
    obtain ⟨hcode, rfl, rfl⟩ | ⟨rfl, rfl, before, after, x, y, hxy, rfl, rfl⟩ | ⟨rfl, rfl, hne⟩ := hchange
    · rw [hcs, Ne, xorOnto_inj, BitVec.xor_right_inj]
      exact hcode.symm
    · rwa [hcs, Ne, xorOnto_replace_inj]
    · rwa [← hcs]
  have hbytes : [0xAA, BitVec.ofNat 8 payload.length, code'] ++ payload' ++ [cs', 0x55]
      = Config.startByte :: lengthByte payload' :: code' :: (payload' ++ [cs', Config.endByte]) := by
    simp [lengthByte, hsame, Config.startByte, Config.endByte]
  refine ⟨dropFrame .checksumMismatch (s.setFramer (awaitingChecksum code' payload' s)), ?_, rfl, rfl, rfl, rfl,
    rfl⟩
  rw [hbytes, drain_upTo_checksum code' _ hst (hsame.trans_le hlen), drain_wrong_checksum [] rfl hsum, drain_nil]

/-! ### The rule of each byte, in the words of the statements

`droppedFrame` and `huntingWith` of the statements are `dropFrame` and `resync` of the model by definition, so the
rules above apply as they stand. -/

/-- Settles O27: the checksum byte is stored, then the end marker is checked before the checksum. -/
theorem endByteDecidesTheFrame : Obligations.EndByteDecidesTheFrame := by
  unfold Obligations.EndByteDecidesTheFrame
  exact ⟨fun b _ h => byteStep_csum b h, fun _ _ h hb => byteStep_fin_bad_marker h hb,
    fun _ h hsum => byteStep_fin_mismatch h hsum, fun _ h hsum => byteStep_fin_valid h hsum⟩

/-- Settles O23: the start byte opens a frame; any other byte is only recorded. -/
theorem huntTakesOnlyTheStartByte : Obligations.HuntTakesOnlyTheStartByte := by
  unfold Obligations.HuntTakesOnlyTheStartByte
  exact fun b s h => ⟨fun hb => hb ▸ byteStep_hunt_start h, byteStep_hunt_other h⟩

/-- Settles O24: a length that fits keeps its value in the six bits of `flen`. -/
theorem lengthByteIsBounded : Obligations.LengthByteIsBounded := by
  unfold Obligations.LengthByteIsBounded
  exact fun b s h => ⟨byteStep_len_overflow h, fun hb => ⟨_, setWidth_six_toNat hb, byteStep_len_fits h hb⟩⟩

/-- Settles O25: the length stored decides whether payload bytes come next. -/
theorem commandByteIsStored : Obligations.CommandByteIsStored := by
  unfold Obligations.CommandByteIsStored
  intro b s h
  rw [byteStep_cmd b h, cmdByte]
  constructor
  · intro hzero
    rw [if_pos (BitVec.eq_of_toNat_eq hzero)]
    rfl
  · intro hpos
    rw [if_neg (ne_of_apply_ne BitVec.toNat hpos)]
    rfl

/-- Settles O26: inside the buffer the write hits exactly `fbuf[fidx]` and `fidx + 1` does not wrap. -/
theorem payloadByteIsStored : Obligations.PayloadByteIsStored := by
  unfold Obligations.PayloadByteIsStored
  intro b s h hidx
  have hnext : (s.framer.fidx + 1#6).toNat = s.framer.fidx.toNat + 1 := by bv_omega
  refine ⟨(payByte b s).framer, byteStep_pay b h, fun k => ?_, rfl, hnext, fun hlast => ?_, fun hmore => ?_,
    rfl, rfl, rfl, rfl⟩
  · simp [payByte, Vector.getElem_setIfInBounds, eq_comm]
  · exact if_pos (BitVec.eq_of_toNat_eq (hnext.trans hlast))
  · exact if_neg (ne_of_apply_ne BitVec.toNat (hnext ▸ hmore))

/-! ### The bounded wait window (R108, R109) -/

theorem timeoutCheck_of_expired {s : State} (hst : s.framer.fstate ≠ .hunt)
    (h : s.params.frameTimeout.toNat < since s.now s.framer.ft0) :
    timeoutCheck s = dropFrame .frameTimeout s :=
  if_pos ⟨hst, h⟩

theorem timeoutCheck_of_open {s : State}
    (h : s.framer.fstate = .hunt ∨ since s.now s.framer.ft0 ≤ s.params.frameTimeout.toNat) :
    timeoutCheck s = s :=
  if_neg fun ⟨hst, hexpired⟩ => h.elim hst (Nat.not_le.mpr hexpired)

/-- Settles O28: the check drops the frame exactly when one is open and its window has passed. -/
theorem expiredFrameIsDropped : Obligations.ExpiredFrameIsDropped := by
  unfold Obligations.ExpiredFrameIsDropped
  exact fun s => ⟨timeoutCheck_of_expired, fun h => timeoutCheck_of_open (.inl h),
    fun h => timeoutCheck_of_open (.inr h)⟩

/-- Settles O44: with the window open a tick without bytes is the motion phase alone, which writes no framer
register. -/
theorem openFrameSurvivesTheTick : Obligations.OpenFrameSurvivesTheTick := by
  unfold Obligations.OpenFrameSurvivesTheTick
  intro s t now later hin hstep hopen
  have hmotion : step s = .next (motionPhase (beginTick now { s with inputs := later })) := by
    simp only [step, runInput, hin, tick, drain_nil, beforeBytes]
    rw [timeoutCheck_of_open (by simpa using hopen)]
  obtain rfl := Host.Outcome.next.inj (hstep.symm.trans hmotion)
  simp

end Sys2Proof.Machine
end

section
/-! SUPPORT. The three conversions of spec/41_dispatcher.md as facts about numbers: `deg_to_pw` (R136), `step_to_pw`
(R137) and `pw_to_deg100` (R138). None of them wraps in 16 bits. -/

namespace Sys2Proof.Machine

theorem degToPw_toNat (d : Half) : (degToPw d).toNat = 500 + min d.toNat 180 * 2000 / 180 := by
  have hspan := degToSpan_le d.toNat
  rw [degToPw, BitVec.toNat_ofNat, Config.pwMin]
  exact Nat.mod_eq_of_lt (by omega)

theorem stepToPw_toNat (b : Byte) : (stepToPw b).toNat = max 1 (min b.toNat 180 * 2000 / 180) := by
  have hspan := degToSpan_le b.toNat
  have hforced : (if degToSpan b.toNat = 0 then 1 else degToSpan b.toNat) = max 1 (degToSpan b.toNat) := by
    split <;> omega
  rw [stepToPw, hforced, BitVec.toNat_ofNat]
  exact Nat.mod_eq_of_lt (by omega)

/-- On a legal pulse width the division is exact: 2000 microseconds are 18000 hundredths of a degree. -/
theorem pwToDeg100_toNat {pw : Half} (hlow : 500 ≤ pw.toNat) (hhigh : pw.toNat ≤ 2500) :
    (pwToDeg100 pw).toNat = (pw.toNat - 500) * 9 := by
  simp only [pwToDeg100, Config.pwMin, Config.pwMax, Config.degMax, BitVec.toNat_ofNat]
  omega

/-- Settles O5: the span of the clamped angle is at most 2000 microseconds. -/
theorem degreesToPulseWidth : Obligations.DegreesToPulseWidth := by
  unfold Obligations.DegreesToPulseWidth
  refine ⟨degToPw_toNat, fun d => ?_, by decide⟩
  rw [degToPw_toNat]
  omega

/-- Settles O6: forcing a zero to 1 is the maximum with 1. -/
theorem degreesToStepSize : Obligations.DegreesToStepSize := by
  unfold Obligations.DegreesToStepSize
  intro b
  rw [stepToPw_toNat]
  omega

/-- Settles O7: the formula's division is exact on the legal range. -/
theorem pulseWidthToCentidegrees : Obligations.PulseWidthToCentidegrees := by
  unfold Obligations.PulseWidthToCentidegrees
  exact fun _ => pwToDeg100_toNat

end Sys2Proof.Machine
end

section
/-! SUPPORT. The dispatcher's checks of a packet (spec/41_dispatcher.md R130-R133): which codes have a required
length, and what a packet with an unknown code, with a wrong length and with the right length gives. -/

open Sys2Proof.Claims

namespace Sys2Proof

/-! ### The table of codes and lengths (spec/30_encoding.md R79) -/

/-- The rows of R79, code and required length. -/
theorem reqLen_of_mem {c : Byte} {n : Nat}
    (h : (c.toNat, n) ∈ [(1, 0), (2, 3), (3, 1), (4, 0), (5, 6), (6, 1), (7, 0)]) : reqLen c = some n := by
  have hrows : ∀ row ∈ [(1, 0), (2, 3), (3, 1), (4, 0), (5, 6), (6, 1), (7, 0)],
      reqLen (BitVec.ofNat 8 row.1) = some row.2 := by decide
  simpa using hrows _ h

/-- Every payload of the length its code requires is the payload of a command with that code. -/
theorem exists_instr_of_reqLen {c : Byte} {payload : List Byte} (h : reqLen c = some payload.length) :
    ∃ i : Instr, i.code = c ∧ i.payload = payload := by
  unfold reqLen at h
  split_ifs at h with hping hset hget hall hmove hstop hstatus <;> rw [Option.some_inj] at h
  · exact ⟨.ping, hping.symm, (List.length_eq_zero_iff.mp h.symm).symm⟩
  · obtain ⟨ch, pwHi, pwLo, rfl⟩ := List.length_eq_three.mp h.symm
    exact ⟨.setServo ch (u16 pwHi pwLo), hset.symm, by simp [Instr.payload]⟩
  · obtain ⟨ch, rfl⟩ := List.length_eq_one_iff.mp h.symm
    exact ⟨.getServo ch, hget.symm, rfl⟩
  · exact ⟨.getAll, hall.symm, (List.length_eq_zero_iff.mp h.symm).symm⟩
  · match payload, h with
    | [ch, targetHi, targetLo, size, delayHi, delayLo], _ =>
      exact ⟨.moveStepped ch (u16 targetHi targetLo) size (u16 delayHi delayLo), hmove.symm,
        by simp [Instr.payload]⟩
  · obtain ⟨ch, rfl⟩ := List.length_eq_one_iff.mp h.symm
    exact ⟨.stopMove ch, hstop.symm, rfl⟩
  · exact ⟨.getMoveStatus, hstatus.symm, (List.length_eq_zero_iff.mp h.symm).symm⟩

theorem Instr.code_toNat_bounds (i : Instr) : 1 ≤ i.code.toNat ∧ i.code.toNat ≤ 7 := by
  cases i <;> simp only [Instr.code] <;> decide

/-- A code outside 01..07 is no command's, so it has no required length (R81). -/
theorem reqLen_eq_none {c : Byte} (h : c = 0x00 ∨ 0x08 ≤ c.toNat) : reqLen c = none := by
  cases hc : reqLen c with
  | none => rfl
  | some n =>
    obtain ⟨i, rfl, -⟩ := exists_instr_of_reqLen (payload := List.replicate n 0) (by simpa using hc)
    have hbounds := i.code_toNat_bounds
    obtain hzero | hhigh := h
    · rw [hzero] at hbounds
      exact absurd hbounds (by decide)
    · omega

namespace Machine

/-! ### What a packet gives -/

theorem dispatch_of_unknown {c : Byte} (hc : reqLen c = none) (payload : List Byte) (s : State) :
    dispatch ⟨c, payload⟩ s = .next (saidError .unknownCommand s) := by
  simp only [dispatch, decodePacket, hc, replyError_eq_saidError]

/-- A payload of another length than the code's is no command's, so only the ERROR answer is left (R133). -/
theorem dispatch_of_wrong_length {c : Byte} {n : Nat} (hc : reqLen c = some n) {payload : List Byte}
    (hlen : payload.length ≠ n) (s : State) :
    dispatch ⟨c, payload⟩ s = .next (saidError .badLength s) := by
  have hnone : operands c payload = none := by
    rw [Option.eq_none_iff_forall_ne_some]
    intro i hi
    obtain ⟨rfl, rfl⟩ := code_payload_of_operands hi
    exact hlen (Option.some.inj ((reqLen_code i).symm.trans hc))
  simp only [dispatch, decodePacket, hc, hnone, replyError_eq_saidError]

theorem dispatch_code_payload (i : Instr) (s : State) : dispatch ⟨i.code, i.payload⟩ s = exec i s := by
  have hpacket : decodePacket ⟨i.code, i.payload⟩ = .ok i := decodePacket_eq_ok_iff.mpr rfl
  simp only [dispatch, hpacket]

/-- Settles O15: a code outside 01..07 has no required length. -/
theorem unknownCommandGetsOneError : Obligations.UnknownCommandGetsOneError := by
  unfold Obligations.UnknownCommandGetsOneError
  exact fun _ payload s hc => dispatch_of_unknown (reqLen_eq_none hc) payload s

/-- Settles O16: the table of R79 is the decoder's, and a wrong length is checked against it. -/
theorem wrongLengthGetsOneError : Obligations.WrongLengthGetsOneError := by
  unfold Obligations.WrongLengthGetsOneError
  exact fun _ _ _ s hc hlen => dispatch_of_wrong_length (reqLen_of_mem hc) hlen s

/-- Settles O17: a payload of the required length is a command's, and its packet decodes to that command. -/
theorem rightLengthRunsItsCommand : Obligations.RightLengthRunsItsCommand := by
  unfold Obligations.RightLengthRunsItsCommand
  rintro c n payload s hc rfl
  obtain ⟨i, rfl, rfl⟩ := exists_instr_of_reqLen (reqLen_of_mem hc)
  exact ⟨i, rfl, rfl, dispatch_code_payload i s⟩

end Machine

end Sys2Proof
end

section
/-! SUPPORT. What each command does, accepted and refused (spec/41_dispatcher.md R135, R140-R153), and from these the
statements about the single commands, about their one response frame (R134) and about what no command writes. -/

open Sys2Proof.Claims

namespace Sys2Proof.Machine

/-! ### The answers in the words of the statements -/

theorem replyOk_eq_said (payload : List Byte) (s : State) : replyOk payload s = said (frameOf 0x00 payload) s := rfl

theorem replyOk_nil_eq_said (s : State) : replyOk [] s = said plainOk s := rfl

/-- A 16-bit field stands on the wire upper byte first (spec/20_memory.md R52). -/
theorem be16_eq (v : Half) : be16 v = [upper v, lower v] := by
  have hupper : hi8 v = upper v := by
    apply BitVec.eq_of_toNat_eq
    simp [hi8, upper]
  have hlower : lo8 v = lower v := by
    apply BitVec.eq_of_toNat_eq
    simp [lo8, lower]
  rw [be16, hupper, hlower]

/-! ### Each command on a channel that exists -/

section

variable {ch : Byte} {i : Channel}

theorem exec_getServo (h : ch.toNat = i.val) (s : State) :
    exec (.getServo ch) s = .next (replyOk (ch :: be16 (s.getPos i)) s) := by
  simp only [exec, execGetServo, channelOf_eq_some.mpr h]

theorem exec_setServo (h : ch.toNat = i.val) {pw : Half} (hpw : pulseInRange pw = true) (s : State) :
    exec (.setServo ch pw) s = .next (replyOk [] (s.setPos i pw)) := by
  simp only [exec, execSetServo, channelOf_eq_some.mpr h, if_pos hpw]

/-- The range check of SET_SERVO comes after its channel check (R141). -/
theorem exec_setServo_of_bad_width (h : ch.toNat = i.val) {pw : Half} (hpw : ¬ pulseInRange pw = true) (s : State) :
    exec (.setServo ch pw) s = .next (saidError .badPulseWidth s) := by
  simp only [exec, execSetServo, channelOf_eq_some.mpr h, if_neg hpw, replyError_eq_saidError]

theorem exec_moveStepped (h : ch.toNat = i.val) (target : Half) (size : Byte) (delay : Half) (s : State) :
    exec (.moveStepped ch target size delay) s
      = .next (replyOk [] (s.setMove i (startedMove i target size delay s))) := by
  simp only [exec, execMoveStepped, channelOf_eq_some.mpr h]

theorem exec_stopMove (h : ch.toNat = i.val) (s : State) :
    exec (.stopMove ch) s = .next (replyOk [] (clearActive i s)) := by
  simp only [exec, execStopMove, if_neg (ne_broadcast_of_channel h), channelOf_eq_some.mpr h]

end

/-! ### Each command on a channel that does not exist (R135) -/

section

variable {ch : Byte} (h : 4 ≤ ch.toNat) (s : State)
include h

theorem exec_getServo_of_bad_channel : exec (.getServo ch) s = .next (saidError .badChannel s) := by
  simp only [exec, execGetServo, channelOf_eq_none.mpr h, replyError_eq_saidError]

theorem exec_setServo_of_bad_channel (pw : Half) : exec (.setServo ch pw) s = .next (saidError .badChannel s) := by
  simp only [exec, execSetServo, channelOf_eq_none.mpr h, replyError_eq_saidError]

theorem exec_moveStepped_of_bad_channel (target : Half) (size : Byte) (delay : Half) :
    exec (.moveStepped ch target size delay) s = .next (saidError .badChannel s) := by
  simp only [exec, execMoveStepped, channelOf_eq_none.mpr h, replyError_eq_saidError]

theorem exec_stopMove_of_bad_channel (hall : ch ≠ Config.broadcast) :
    exec (.stopMove ch) s = .next (saidError .badChannel s) := by
  simp only [exec, execStopMove, if_neg hall, channelOf_eq_none.mpr h, replyError_eq_saidError]

end

/-! ### The request frames of R85 with their operands open -/

theorem decode_setServo (ch pwHi pwLo : Byte) :
    decode [0xAA, 0x03, 0x02, ch, pwHi, pwLo, 0x03 ^^^ 0x02 ^^^ ch ^^^ pwHi ^^^ pwLo, 0x55]
      = .ok (.setServo ch (u16 pwHi pwLo), []) := by
  rw [decode_eq_ok_iff, encode, Instr.payload, hi8_u16, lo8_u16]
  rfl

theorem decode_getServo (ch : Byte) :
    decode [0xAA, 0x01, 0x03, ch, 0x01 ^^^ 0x03 ^^^ ch, 0x55] = .ok (.getServo ch, []) :=
  decode_eq_ok_iff.mpr rfl

theorem decode_moveStepped (ch targetHi targetLo size delayHi delayLo : Byte) :
    decode [0xAA, 0x06, 0x05, ch, targetHi, targetLo, size, delayHi, delayLo,
        0x06 ^^^ 0x05 ^^^ ch ^^^ targetHi ^^^ targetLo ^^^ size ^^^ delayHi ^^^ delayLo, 0x55]
      = .ok (.moveStepped ch (u16 targetHi targetLo) size (u16 delayHi delayLo), []) := by
  rw [decode_eq_ok_iff, encode, Instr.payload, hi8_u16, lo8_u16, hi8_u16, lo8_u16]
  rfl

theorem decode_stopMove (ch : Byte) :
    decode [0xAA, 0x01, 0x06, ch, 0x01 ^^^ 0x06 ^^^ ch, 0x55] = .ok (.stopMove ch, []) :=
  decode_eq_ok_iff.mpr rfl

/-! ### The statements about the single commands -/

/-- Settles O8: the marker is the parameter, and a payload is a wrong length. -/
theorem pingAnswersItsMarker : Obligations.PingAnswersItsMarker := by
  unfold Obligations.PingAnswersItsMarker
  exact ⟨decode_eq_ok_iff.mpr rfl, fun _ => rfl, fun _ s hlen => dispatch_of_wrong_length rfl hlen s⟩

/-- Settles O9: the channel check, then the range check, then the one write. -/
theorem setServoWritesOnlyItsChannel : Obligations.SetServoWritesOnlyItsChannel := by
  unfold Obligations.SetServoWritesOnlyItsChannel
  refine ⟨fun ch pwHi pwLo => ⟨_, u16_toNat pwHi pwLo, decode_setServo ch pwHi pwLo⟩,
    fun i ch pw s hch hlow hhigh => ?_, fun ch pw s hch => exec_setServo_of_bad_channel hch s pw,
    fun ch pw s hch hpw => ?_, fun _ s hlen => dispatch_of_wrong_length rfl hlen s⟩
  · exact ⟨_, exec_setServo hch ((pulseInRange_iff pw).mpr ⟨hlow, hhigh⟩) s, replyOk_nil_eq_said _,
      State.getPos_setPos_same s i pw⟩
  · refine exec_setServo_of_bad_width (i := ⟨ch.toNat, hch⟩) rfl ?_ s
    rw [pulseInRange_iff]
    omega

/-- Settles O10: the answer echoes the channel byte before the two bytes of `pos[ch]`. -/
theorem getServoReportsItsChannel : Obligations.GetServoReportsItsChannel := by
  unfold Obligations.GetServoReportsItsChannel
  refine ⟨decode_getServo, fun i ch s hch => ?_, fun _ s hch => exec_getServo_of_bad_channel hch s,
    fun _ s hlen => dispatch_of_wrong_length rfl hlen s⟩
  rw [exec_getServo hch, be16_eq, replyOk_eq_said]

/-- Settles O11: the channel list is 0, 1, 2, 3, and each width is written upper byte first. -/
theorem getAllReportsEveryChannel : Obligations.GetAllReportsEveryChannel := by
  unfold Obligations.GetAllReportsEveryChannel
  refine ⟨decode_eq_ok_iff.mpr rfl, fun s => ?_, fun _ s hlen => dispatch_of_wrong_length rfl hlen s⟩
  simp [exec, execGetAll, channels, be16_eq, replyOk_eq_said]

/-- Settles O12: the new move is `startedMove`, with target and step converted. -/
theorem moveSteppedStartsAMove : Obligations.MoveSteppedStartsAMove := by
  unfold Obligations.MoveSteppedStartsAMove
  refine ⟨fun ch targetHi targetLo size delayHi delayLo => ?_, fun i ch target size delay s hch => ?_,
    fun _ target size delay s hch => exec_moveStepped_of_bad_channel hch s target size delay,
    fun _ s hlen => dispatch_of_wrong_length rfl hlen s⟩
  · exact ⟨_, _, u16_toNat targetHi targetLo, u16_toNat delayHi delayLo,
      decode_moveStepped ch targetHi targetLo size delayHi delayLo⟩
  · exact ⟨startedMove i target size delay s, exec_moveStepped hch target size delay s, rfl, degToPw_toNat target,
      rfl, stepToPw_toNat size, rfl, rfl⟩

/-- Settles O13: FF clears every channel's flag, a channel index its own, and 4..FE is no channel. -/
theorem stopMoveClearsOnlyActive : Obligations.StopMoveClearsOnlyActive := by
  unfold Obligations.StopMoveClearsOnlyActive
  refine ⟨decode_stopMove, fun _ _ s hch => exec_stopMove hch s, fun s => ⟨_, rfl, rfl, fun i => ?_⟩,
    fun ch s hch hmax => exec_stopMove_of_bad_channel hch s ?_, fun _ s hlen => dispatch_of_wrong_length rfl hlen s⟩
  · exact clearAllActive_getMove i s
  · rintro rfl
    exact absurd hmax (by decide)

/-- Settles O14: the flags and the converted positions of the four channels. -/
theorem getMoveStatusReportsFlagsAndPositions : Obligations.GetMoveStatusReportsFlagsAndPositions := by
  unfold Obligations.GetMoveStatusReportsFlagsAndPositions
  refine ⟨decode_eq_ok_iff.mpr rfl, fun s => ?_, fun _ s hlen => dispatch_of_wrong_length rfl hlen s⟩
  refine ⟨fun i => activeByte (s.getMove i), fun i => pwToDeg100 (s.getPos i), ?_, fun _ => rfl,
    fun _ => pwToDeg100_toNat⟩
  simp [exec, execGetMoveStatus, channels, be16_eq, replyOk_eq_said]

/-! ### One response per packet (R134) -/

/-- The payload of every OK answer fits into a frame (R191, R192). -/
theorem Accepted.exec_eq_of_payload_fits {i : Instr} {s u : State} (h : Accepted i s u) (hparams : s.params.wf = true) :
    ∃ payload, payload.length ≤ 32 ∧ exec i s = .next (replyOk payload u) := by
  cases h with
  | ping =>
    obtain ⟨-, hping, -⟩ := (Config.Params.wf_iff _).mp hparams
    exact ⟨_, hping, rfl⟩
  | getServo _ hch => exact ⟨_, by simp [be16], exec_getServo hch s⟩
  | getAll => exact ⟨_, by simp [channels, be16], rfl⟩
  | getMoveStatus => exact ⟨_, by simp [channels, be16], rfl⟩
  | setServo _ hch hpw => exact ⟨_, Nat.zero_le _, exec_setServo hch hpw s⟩
  | moveStepped _ hch => exact ⟨_, Nat.zero_le _, exec_moveStepped hch _ _ _ s⟩
  | stopMove _ hch => exact ⟨_, Nat.zero_le _, exec_stopMove hch s⟩
  | stopAll => exact ⟨_, Nat.zero_le _, rfl⟩

/-- `Responded s t`: from `s` to `t` exactly one response frame was sent, OK or ERROR, with a payload that fits. -/
def Responded (s t : State) : Prop :=
  ∃ (code : Byte) (payload : List Byte), (code = 0x00 ∨ code = 0xFF) ∧ payload.length ≤ 32
    ∧ t.tx = s.tx ++ frameOf code payload

theorem responded_replyError (c : Cause) (s : State) : Responded s (replyError c s) :=
  ⟨0xFF, [], .inr rfl, Nat.zero_le _, rfl⟩

theorem exec_responded (i : Instr) {s : State} (hparams : s.params.wf = true) :
    ∃ t, exec i s = .next t ∧ Responded s t := by
  cases hwf : i.wf with
  | false =>
    obtain ⟨c, -, hexec⟩ := exec_eq_replyError_of_not_wf hwf s
    exact ⟨_, hexec, responded_replyError c s⟩
  | true =>
    obtain ⟨u, hu⟩ := exists_accepted_of_wf hwf s
    obtain ⟨payload, hfits, hexec⟩ := hu.exec_eq_of_payload_fits hparams
    exact ⟨_, hexec, 0x00, payload, .inl rfl, hfits, by rw [replyOk_tx, hu.tx]; rfl⟩

theorem dispatch_responded (p : Packet) {s : State} (hparams : s.params.wf = true) :
    ∃ t, dispatch p s = .next t ∧ Responded s t := by
  obtain ⟨c, -, h⟩ | ⟨i, -, h⟩ := dispatch_cases p s
  · exact ⟨_, h, responded_replyError c s⟩
  · rw [h]
    exact exec_responded i hparams

/-- Settles O19: every packet is answered once, and a frame whose payload fits decodes back. -/
theorem everyPacketGetsOneResponse : Obligations.EveryPacketGetsOneResponse := by
  unfold Obligations.EveryPacketGetsOneResponse
  intro p s hparams
  obtain ⟨t, hdispatch, code, payload, hcode, hfits, htx⟩ := dispatch_responded p hparams
  refine ⟨t, code, payload, hdispatch, hcode, hfits, htx, ?_⟩
  rw [← frame_eq_frameOf, ← List.append_nil (frame code payload)]
  exact decodeFrame_frame code [] hfits

/-! ### What no command writes (R140-R153) -/

section

variable {i : Instr} {s u : State} (h : Accepted i s u)
include h

theorem Accepted.framer : u.framer = s.framer := by cases h <;> rfl

theorem Accepted.now : u.now = s.now := by cases h <;> rfl

theorem Accepted.inputs : u.inputs = s.inputs := by cases h <;> rfl

end

/-- Settles O20: an ERROR answer and an OK answer only append, and no accepted effect touches these fields. -/
theorem commandsLeaveFramerAndInputs : Obligations.CommandsLeaveFramerAndInputs := by
  unfold Obligations.CommandsLeaveFramerAndInputs
  intro i s t h
  obtain ⟨c, rfl⟩ | ⟨payload, u, hu, rfl⟩ := exec_eq_next h
  · exact ⟨rfl, rfl, rfl, rfl, ⟨_, rfl⟩, ⟨_, rfl⟩⟩
  · refine ⟨hu.framer, hu.now, hu.inputs, hu.params, ?_, ?_⟩
    · rw [replyOk_tx, hu.tx]
      exact ⟨_, rfl⟩
    · rw [replyOk_events, hu.events]

end Sys2Proof.Machine
end

section
/-! SUPPORT. The Stepped-Motion Engine (spec/42_motion.md): when a channel steps (R171, R183), the two kinds of step in
the words of the statements (R173, R174), the channels' independence (R182), and the length of a move (R179). -/

open Sys2Proof.Claims

namespace Sys2Proof.Machine

/-! ### When a channel steps (R171, R183) -/

theorem motionStep_of_not_eligible {i : Channel} {s : State} (h : ¬ eligible i s) : motionStep i s = s :=
  (motionStep_eq_self_or_eligible i s).resolve_right fun ⟨heligible, _⟩ => h heligible

theorem motionStep_of_eligible {i : Channel} {s : State} (h : eligible i s) :
    motionStep i s = (s.setMove i (stepMove s.now (s.getMove i))).setPos i
      (stepMove s.now (s.getMove i)).current := by
  obtain ⟨hactive, hdue⟩ := h
  obtain ⟨hidle | hearly, -⟩ | ⟨-, -, hstep⟩ := motionStep_cases i s
  · exact absurd (hactive.symm.trans hidle) (by decide)
  · exact absurd (((due_iff _ _).mpr hdue).symm.trans hearly) (by decide)
  · exact hstep

theorem motionStep_getMove_of_eligible {i : Channel} {s : State} (h : eligible i s) :
    (motionStep i s).getMove i = stepMove s.now (s.getMove i) := by
  rw [motionStep_of_eligible h, State.getMove_setPos, State.getMove_setMove_same]

/-- Every step commits the new `current` (R175). -/
theorem motionStep_getPos_of_eligible {i : Channel} {s : State} (h : eligible i s) :
    (motionStep i s).getPos i = ((motionStep i s).getMove i).current := by
  rw [motionStep_getMove_of_eligible h, motionStep_of_eligible h, State.getPos_setPos_same]

/-- Settles O32: an Idle channel is not eligible. -/
theorem idleChannelIsHeld : Obligations.IdleChannelIsHeld := by
  unfold Obligations.IdleChannelIsHeld
  intro i s hidle
  exact motionStep_of_not_eligible fun ⟨hactive, _⟩ => absurd (hactive.symm.trans hidle) (by decide)

/-- Settles O36: `servo_pw[i]` is `pos[i]`, which the step writes with the new `current`. -/
theorem everyStepCommits : Obligations.EveryStepCommits := by
  unfold Obligations.EveryStepCommits
  exact fun i s h => ⟨motionStep_getPos_of_eligible h, motionStep_getPos_of_eligible h⟩

/-! ### The two kinds of step (R172-R174, R176) -/

theorem stepMove_last (now : Time) (m : Move) : (stepMove now m).last = now := by
  obtain ⟨-, h⟩ | ⟨v, h, -⟩ := stepMove_cases now m <;> rw [h]

theorem stepMove_of_near {m : Move} (now : Time) (h : (gap m).natAbs ≤ m.step.toNat) :
    stepMove now m = { m with current := m.target, active := false, last := now } := if_pos h

/-- A step short of the target shortens the distance by exactly `step` and keeps its direction. -/
theorem stepMove_of_far {m : Move} (now : Time) (h : m.step.toNat < (gap m).natAbs) :
    ∃ v : Half, stepMove now m = { m with current := v, last := now }
      ∧ (0 < gap m ∧ v.toNat = m.current.toNat + m.step.toNat ∧ v.toNat < m.target.toNat
        ∨ gap m < 0 ∧ v.toNat + m.step.toNat = m.current.toNat ∧ m.target.toNat < v.toNat) := by
  obtain ⟨hnear, -⟩ | ⟨v, hv, hside⟩ := stepMove_cases now m
  · exact absurd hnear (Nat.not_le.mpr h)
  · refine ⟨v, hv, hside.imp (fun hup => ⟨?_, hup⟩) (fun hdown => ⟨?_, hdown⟩)⟩ <;> unfold gap <;> omega

/-- Settles O34: the step of an eligible channel is its `stepMove`, which snaps within one step of the target. -/
theorem snapEndsTheMove : Obligations.SnapEndsTheMove := by
  unfold Obligations.SnapEndsTheMove
  rintro i s m rfl heligible hnear
  rw [motionStep_of_eligible heligible, stepMove_of_near s.now hnear]

/-- Settles O35: the sign of the gap picks the direction, and a legal `step` is at least 1. -/
theorem advanceMovesByOneStep : Obligations.AdvanceMovesByOneStep := by
  unfold Obligations.AdvanceMovesByOneStep
  rintro i s m rfl heligible hok hfar
  obtain ⟨-, -, hstep, -⟩ := (Move.ok_iff _).mp hok heligible.1
  obtain ⟨v, hv, hside⟩ := stepMove_of_far s.now hfar
  refine ⟨v, by rw [motionStep_of_eligible heligible, hv], fun hup => ?_, fun hdown => ?_⟩ <;> omega

/-- Settles O33: a channel is eligible exactly when due, and its step is a snap or an advance up or down. -/
theorem movingChannelStepsWhenDue : Obligations.MovingChannelStepsWhenDue := by
  unfold Obligations.MovingChannelStepsWhenDue
  rintro i s m m' rfl rfl hactive
  refine ⟨fun hearly => motionStep_of_not_eligible fun ⟨_, hdue⟩ => Nat.not_le.mpr hearly hdue, fun hdue => ?_⟩
  rw [motionStep_getMove_of_eligible ⟨hactive, hdue⟩]
  refine ⟨stepMove_last _ _, ?_⟩
  obtain ⟨-, h⟩ | ⟨v, h, hside⟩ := stepMove_cases s.now (s.getMove i) <;> rw [h]
  · exact .inl ⟨rfl, rfl⟩
  · exact .inr ⟨hactive, hside.imp (fun ⟨hup, _⟩ => by bv_omega) (fun ⟨hdown, _⟩ => by bv_omega)⟩

/-! ### The channels are independent (R170, R182) -/

/-- A channel's step reads only `now` and its own `mv` and `pos`. -/
theorem motionStep_own_congr {i : Channel} {s t : State} (hnow : s.now = t.now) (hmv : s.getMove i = t.getMove i)
    (hpos : s.getPos i = t.getPos i) :
    (motionStep i s).getMove i = (motionStep i t).getMove i
      ∧ (motionStep i s).getPos i = (motionStep i t).getPos i := by
  by_cases h : eligible i s
  · have h' : eligible i t := by rwa [eligible, ← hnow, ← hmv]
    simp [motionStep_of_eligible, h, h', hnow, hmv]
  · have h' : ¬ eligible i t := by rwa [eligible, ← hnow, ← hmv]
    simp [motionStep_of_not_eligible, h, h', hmv, hpos]

theorem motionStep_getMove_after_other {i j : Channel} (s : State) (h : i ≠ j) :
    (motionStep i (motionStep j s)).getMove i = (motionStep i s).getMove i :=
  (motionStep_own_congr (motionStep_now j s) (motionStep_getMove_ne s h) (motionStep_getPos_ne s h)).1

theorem motionStep_getPos_after_other {i j : Channel} (s : State) (h : i ≠ j) :
    (motionStep i (motionStep j s)).getPos i = (motionStep i s).getPos i :=
  (motionStep_own_congr (motionStep_now j s) (motionStep_getMove_ne s h) (motionStep_getPos_ne s h)).2

/-- Both orders give each of the two channels its own step and leave every other channel. -/
theorem motionStep_comm {i j : Channel} (s : State) (h : i ≠ j) :
    motionStep i (motionStep j s) = motionStep j (motionStep i s) := by
  have hchannel (c : Channel) :
      (motionStep i (motionStep j s)).getPos c = (motionStep j (motionStep i s)).getPos c
        ∧ (motionStep i (motionStep j s)).getMove c = (motionStep j (motionStep i s)).getMove c := by
    by_cases hi : c = i
    · subst hi
      rw [motionStep_getPos_after_other s h, motionStep_getPos_ne _ h, motionStep_getMove_after_other s h,
        motionStep_getMove_ne _ h]
      exact ⟨rfl, rfl⟩
    by_cases hj : c = j
    · subst hj
      rw [motionStep_getPos_after_other s hi, motionStep_getPos_ne _ hi, motionStep_getMove_after_other s hi,
        motionStep_getMove_ne _ hi]
      exact ⟨rfl, rfl⟩
    · simp [motionStep_getPos_ne, motionStep_getMove_ne, hi, hj]
  exact State.ext_channels (fun c => (hchannel c).1) (fun c => (hchannel c).2) (by simp) (by simp) (by simp) (by simp)
    (by simp) (by simp)

/-- Settles O37, by the frame of one step and the commutation of two. -/
theorem channelsAreIndependent : Obligations.ChannelsAreIndependent := by
  unfold Obligations.ChannelsAreIndependent
  exact fun i j s h => ⟨motionStep_getMove_ne s h.symm, motionStep_getPos_ne s h.symm, motionStep_comm s h⟩

theorem motionPhase_eq (s : State) :
    motionPhase s = motionStep 3 (motionStep 2 (motionStep 1 (motionStep 0 s))) := rfl

theorem motionPhase_getMove (i : Channel) (s : State) : (motionPhase s).getMove i = (motionStep i s).getMove i := by
  rw [motionPhase_eq]
  fin_cases i <;> simp [motionStep_getMove_ne, motionStep_getMove_after_other]

theorem motionPhase_getPos (i : Channel) (s : State) : (motionPhase s).getPos i = (motionStep i s).getPos i := by
  rw [motionPhase_eq]
  fin_cases i <;> simp [motionStep_getPos_ne, motionStep_getPos_after_other]

/-- Settles O38: the other channels' steps neither change nor influence a channel, and none writes another field. -/
theorem motionPhaseIsOneStepPerChannel : Obligations.MotionPhaseIsOneStepPerChannel := by
  unfold Obligations.MotionPhaseIsOneStepPerChannel
  intro s
  refine ⟨fun i => ⟨motionPhase_getMove i s, motionPhase_getPos i s⟩, ?_⟩
  exact State.ext_channels (fun _ => rfl) (fun _ => rfl) (motionPhase_framer s) (motionPhase_now s)
    (motionPhase_tx s) (motionPhase_events s) (motionPhase_inputs s) (motionPhase_params s)

/-! ### How long a move takes (R179) -/

/-- The number of eligible ticks a move still takes: `max(1, ceil(d / step))`. -/
def stepsLeft (m : Move) : Nat := max 1 (((gap m).natAbs + m.step.toNat - 1) / m.step.toNat)

theorem stepsLeft_of_near {m : Move} (hstep : 1 ≤ m.step.toNat) (h : (gap m).natAbs ≤ m.step.toNat) :
    stepsLeft m = 1 := by
  refine max_eq_left (Nat.le_of_lt_succ ((Nat.div_lt_iff_lt_mul hstep).mpr ?_))
  omega

/-- A move one `step` closer to its target, and not yet there, takes one eligible tick less. -/
theorem stepsLeft_of_closer {m m' : Move} (hstep : 1 ≤ m.step.toNat) (hsame : m'.step = m.step)
    (hpos : 0 < (gap m').natAbs) (hgap : (gap m).natAbs = (gap m').natAbs + m.step.toNat) :
    stepsLeft m = stepsLeft m' + 1 := by
  have hleft : 1 ≤ ((gap m').natAbs + m.step.toNat - 1) / m.step.toNat :=
    (Nat.one_le_div_iff hstep).mpr (by omega)
  have hdiv : ((gap m).natAbs + m.step.toNat - 1) / m.step.toNat
      = ((gap m').natAbs + m.step.toNat - 1) / m.step.toNat + 1 := by
    rw [← Nat.add_div_right _ hstep, hgap]
    congr 1
    omega
  rw [stepsLeft, stepsLeft, hsame, hdiv, max_eq_right (by omega), max_eq_right hleft]

/-- `m'` is `m` after `k` advances, none beyond the target. -/
def AdvancedBy (k : Nat) (m m' : Move) : Prop :=
  m'.active = true
    ∧ (m'.current.toNat : Int) = m.current.toNat + (gap m).sign * (k * m.step.toNat : Nat)
    ∧ k * m.step.toNat ≤ (gap m).natAbs

theorem advancedBy_zero {m : Move} (h : m.active = true) : AdvancedBy 0 m m := ⟨h, by simp, by simp⟩

/-- What an advance leaves of a move: the same move, one `step` closer, in the same direction. -/
theorem stepMove_advances {m : Move} (now : Time) (hfar : m.step.toNat < (gap m).natAbs) :
    (stepMove now m).active = m.active ∧ (stepMove now m).target = m.target ∧ (stepMove now m).step = m.step
      ∧ ((stepMove now m).current.toNat : Int) = m.current.toNat + (gap m).sign * m.step.toNat
      ∧ (gap (stepMove now m)).sign = (gap m).sign
      ∧ 0 < (gap (stepMove now m)).natAbs
      ∧ (gap m).natAbs = (gap (stepMove now m)).natAbs + m.step.toNat := by
  obtain ⟨v, hv, ⟨hgap, hcurrent, hshort⟩ | ⟨hgap, hcurrent, hshort⟩⟩ := stepMove_of_far now hfar
  · have hgap' : 0 < gap { m with current := v, last := now } := sub_pos.mpr (Int.ofNat_lt.mpr hshort)
    rw [hv, Int.sign_eq_one_of_pos hgap, Int.sign_eq_one_of_pos hgap']
    simp only [gap, true_and] at *
    omega
  · have hgap' : gap { m with current := v, last := now } < 0 := sub_neg.mpr (Int.ofNat_lt.mpr hshort)
    rw [hv, Int.sign_eq_neg_one_of_neg hgap, Int.sign_eq_neg_one_of_neg hgap']
    simp only [gap, true_and] at *
    omega

/-- An advance and `k` more are `k + 1` advances. -/
theorem AdvancedBy.after_step {k : Nat} {now : Time} {m m' : Move} (hfar : m.step.toNat < (gap m).natAbs)
    (h : AdvancedBy k (stepMove now m) m') : AdvancedBy (k + 1) m m' := by
  obtain ⟨-, -, hstep, hcurrent, hsign, -, hgap⟩ := stepMove_advances now hfar
  obtain ⟨hactive', hcurrent', hreach⟩ := h
  rw [hstep] at hcurrent' hreach
  refine ⟨hactive', ?_, by rw [Nat.succ_mul]; omega⟩
  rw [hcurrent', hcurrent, hsign]
  push_cast
  ring

/-- Before its last eligible tick a move has taken one advance per tick; the last one ends it on the target. -/
theorem movedAt_getMove {i : Channel} {times : List Time} {s : State} (hactive : (s.getMove i).active = true)
    (hok : (s.getMove i).ok = true) (hdue : allDue i times s) :
    (times.length < stepsLeft (s.getMove i) →
        AdvancedBy times.length (s.getMove i) ((movedAt i times s).getMove i))
      ∧ (times.length = stepsLeft (s.getMove i) →
        ((movedAt i times s).getMove i).active = false
          ∧ ((movedAt i times s).getMove i).current = (s.getMove i).target) := by
  obtain ⟨-, -, hstep, -⟩ := (Move.ok_iff _).mp hok hactive
  induction times generalizing s with
  | nil =>
    refine ⟨fun _ => advancedBy_zero hactive, fun hend => ?_⟩
    have hone : 1 ≤ stepsLeft (s.getMove i) := le_max_left _ _
    rw [← hend] at hone
    exact absurd hone (by decide)
  | cons now later ih =>
    obtain ⟨hnow, hlater⟩ := hdue
    have hmove : (motionStep i { s with now := now }).getMove i = stepMove now (s.getMove i) :=
      motionStep_getMove_of_eligible (s := { s with now := now }) ⟨hactive, hnow⟩
    rw [movedAt, List.length_cons]
    by_cases hnear : (gap (s.getMove i)).natAbs ≤ (s.getMove i).step.toNat
    · rw [stepsLeft_of_near hstep hnear]
      refine ⟨fun hbefore => by omega, fun hend => ?_⟩
      obtain rfl : later = [] := List.length_eq_zero_iff.mp (by omega)
      rw [movedAt, hmove, stepMove_of_near now hnear]
      exact ⟨rfl, rfl⟩
    · have hfar := Nat.not_le.mp hnear
      obtain ⟨hactive', htarget, hsame, -, -, hpos, hgap⟩ := stepMove_advances now hfar
      obtain ⟨hbefore, hend⟩ := ih (by rw [hmove, hactive', hactive])
        (by rw [hmove]; exact stepMove_ok now hok hactive) hlater (by rwa [hmove, hsame])
      rw [hmove] at hbefore hend
      rw [stepsLeft_of_closer hstep hsame hpos hgap, ← htarget]
      exact ⟨fun h => (hbefore (by omega)).after_step hfar, fun h => hend (by omega)⟩

/-- A committed channel stays committed through motion steps (R175). -/
theorem movedAt_committed {i : Channel} (times : List Time) {s : State} (h : s.getPos i = (s.getMove i).current) :
    (movedAt i times s).getPos i = ((movedAt i times s).getMove i).current := by
  induction times generalizing s with
  | nil => exact h
  | cons now later ih =>
    refine ih ?_
    by_cases heligible : eligible i { s with now := now }
    · exact motionStep_getPos_of_eligible heligible
    · rw [motionStep_of_not_eligible heligible]
      exact h

/-- The first step of a due move commits the channel, and the later ones keep it so. -/
theorem movedAt_getPos {i : Channel} {times : List Time} {s : State} (hactive : (s.getMove i).active = true)
    (hdue : allDue i times s) (hsome : times ≠ []) :
    (movedAt i times s).getPos i = ((movedAt i times s).getMove i).current := by
  cases times with
  | nil => exact absurd rfl hsome
  | cons now later =>
    obtain ⟨hnow, -⟩ := hdue
    exact movedAt_committed later (motionStep_getPos_of_eligible (s := { s with now := now }) ⟨hactive, hnow⟩)

/-- Settles O39, by induction on the eligible ticks: each advance shortens the gap by `step`, the last step snaps. -/
theorem moveEndsAfterCeilTicks : Obligations.MoveEndsAfterCeilTicks := by
  unfold Obligations.MoveEndsAfterCeilTicks
  rintro i s times m m' v rfl hactive hok hdue rfl rfl
  obtain ⟨hbefore, hend⟩ := movedAt_getMove hactive hok hdue
  refine ⟨fun hlen => ?_, fun hlen => ?_⟩
  · obtain ⟨hactive', hcurrent, hreach⟩ := hbefore hlen
    exact ⟨hactive', hcurrent, hreach, movedAt_getPos hactive hdue⟩
  · obtain ⟨hidle, hcurrent⟩ := hend hlen
    refine ⟨hidle, hcurrent, ?_⟩
    have hsome : times ≠ [] := by
      rintro rfl
      exact Nat.not_lt_zero 0 (Nat.lt_of_succ_le ((le_max_left 1 _).trans_eq hlen.symm))
    rw [movedAt_getPos hactive hdue hsome, hcurrent]

end Sys2Proof.Machine
end

section
/-! SUPPORT. The tick (spec/44_tick.md R200-R202): the bytes of `rx` one after the other, and a tick that brings the
frame of a command while no frame is open. -/

open Sys2Proof.Claims

namespace Sys2Proof.Machine

/-! ### The bytes of a tick in order (R202) -/

theorem andThen_assoc {σ τ υ : Type} (r : Result σ) (k : σ → Result τ) (l : τ → Result υ) :
    andThen (andThen r k) l = andThen r fun s => andThen (k s) l := by
  cases r <;> rfl

/-- With no bytes left, draining adds nothing. -/
@[simp] theorem andThen_drain_nil (r : Result State) : andThen r (drain []) = r := by
  cases r <;> rfl

theorem drain_append (xs ys : List Byte) (s : State) : drain (xs ++ ys) s = andThen (drain xs s) (drain ys) := by
  induction xs generalizing s with
  | nil => rfl
  | cons b xs ih =>
    rw [List.cons_append, drain_cons, drain_cons, andThen_assoc]
    exact congrArg (andThen (byteStep b s)) (funext ih)

/-- Settles O45, by induction on the first part. -/
theorem bytesAreHandledInOrder : Obligations.BytesAreHandledInOrder := by
  unfold Obligations.BytesAreHandledInOrder
  exact drain_append

/-! ### The frame of a command in a tick (R113, R200, R201) -/

/-- From HUNT, the frame of a command runs that command with the framer resynchronised, before the bytes after it. -/
theorem drain_encode {s : State} (i : Instr) (rest : List Byte) (hst : s.framer.fstate = .hunt) :
    ∃ buffer : Vector Byte 32, drain (encode i ++ rest) s
      = andThen (exec i { s with framer := huntingWith buffer }) (drain rest) := by
  obtain ⟨buffer, -, hdrain⟩ := framerDeliversEveryFrame i.code i.payload rest s hst i.payload_length_le
  refine ⟨buffer, ?_⟩
  rw [encode, frame_eq_frameOf, hdrain, dispatch_code_payload]

/-- With no frame open there is nothing to time out, so a tick's bytes follow its motion phase directly. -/
theorem step_tick_of_hunt {s : State} {now : Time} {bytes : List Byte} {later : List Input}
    (hin : s.inputs = .tick now bytes :: later) (hst : s.framer.fstate = .hunt) :
    step s = drain bytes (motionPhase { s with now := now, tx := [], events := [], inputs := later }) := by
  simp only [step, runInput, hin, tick, beforeBytes]
  rw [timeoutCheck_of_open (.inl (by simpa using hst))]
  rfl

/-- Settles O41: the motion phase leaves the framer in HUNT, where the frame of the decoded command runs it. -/
theorem stepRunsTheDecodedCommand : Obligations.StepRunsTheDecodedCommand := by
  unfold Obligations.StepRunsTheDecodedCommand
  intro s now bytes rest later i hin hst hdecode
  rw [step_tick_of_hunt hin hst, decode_eq_ok_iff.mp hdecode]
  exact drain_encode i rest (by simpa using hst)

/-! ### A placed table word (assumption logs 5, 6) -/

theorem decode_of_decodeTableWord {nbits w : Nat} {i : Instr} (h : decodeTableWord nbits w = some i) :
    decode (tableFrame nbits w) = .ok (i, []) := by
  unfold decodeTableWord at h
  split at h
  next hdecode =>
    cases h
    exact hdecode
  · cases h

/-- Settles O42: the placed word is the next tick's bytes, and the framer it is placed into is replaced by the
resynchronised one, which the motion phase does not read. -/
theorem placedWordRunsNext : Obligations.PlacedWordRunsNext := by
  unfold Obligations.PlacedWordRunsNext
  intro s nbits w i h
  obtain ⟨buffer, hstep⟩ := stepRunsTheDecodedCommand (s.withFetchWord nbits w) s.now (tableFrame nbits w) []
    s.inputs i rfl rfl (decode_of_decodeTableWord h)
  have hmotion := motionPhase_setFramer { s with tx := [], events := [] } { s.framer with fstate := .hunt }
  have hframer := congrArg (State.setFramer · (huntingWith buffer)) hmotion
  refine ⟨buffer, hstep.trans ?_⟩
  rw [andThen_drain_nil]
  exact congrArg (exec i) hframer

end Sys2Proof.Machine
end

section
/-! SUPPORT. Errors and the held state (spec/60_exceptions.md): which causes the framer and the dispatcher record, that
a FramingError is silent (R212), that every state has a next state (R214), and the step without an event (R226). -/

open Sys2Proof.Claims

namespace Sys2Proof.Machine

/-! ### The causes of the dispatcher and the commands are no framing causes (R210) -/

theorem decodePacket_error_class {p : Packet} {c : Cause} (h : decodePacket p = .error c) :
    c.errorClass ≠ .framingError := by
  unfold decodePacket at h
  split at h
  · cases h
    decide
  · split at h
    · cases h
      decide
    · cases h

theorem exec_events {i : Instr} {s t : State} (h : exec i s = .next t) :
    t.events = s.events ∨ ∃ c : Cause, c.errorClass ≠ .framingError ∧ t.events = s.events ++ [c] := by
  cases hwf : i.wf with
  | true =>
    obtain ⟨u, hu⟩ := exists_accepted_of_wf hwf s
    obtain ⟨payload, hok⟩ := hu.exec_eq
    obtain rfl := Host.Outcome.next.inj (h.symm.trans hok)
    exact .inl hu.events
  | false =>
    obtain ⟨c, hc, herror⟩ := exec_eq_replyError_of_not_wf hwf s
    obtain rfl := Host.Outcome.next.inj (h.symm.trans herror)
    refine .inr ⟨c, ?_, rfl⟩
    obtain rfl | rfl := hc <;> decide

/-- A dispatched packet records nothing, or one ProtocolError or UnknownCommand (R213). -/
theorem dispatch_events {p : Packet} {s t : State} (h : dispatch p s = .next t) :
    t.events = s.events ∨ ∃ c : Cause, c.errorClass ≠ .framingError ∧ t.events = s.events ++ [c] := by
  obtain ⟨c, hc, herror⟩ | ⟨i, -, hexec⟩ := dispatch_cases p s
  · obtain rfl := Host.Outcome.next.inj (h.symm.trans herror)
    exact .inr ⟨c, decodePacket_error_class hc, rfl⟩
  · exact exec_events (hexec.symm.trans h)

/-! ### A byte that records a framing cause (R212) -/

@[simp] theorem frameByte_tx (b : Byte) (s : State) : (frameByte b s).1.tx = s.tx := by
  obtain ⟨f, e, h⟩ := frameByte_frame b s
  rw [h]

/-- HUNT stays in HUNT when it records a stray byte; every other rule that records drops the frame (R101, R102). -/
theorem frameByte_hunt_of_recorded {b : Byte} {s : State} (h : (frameByte b s).1.events ≠ s.events) :
    (frameByte b s).1.framer.fstate = .hunt := by
  cases hst : s.framer.fstate with
  | hunt =>
    rw [frameByte_hunt hst] at h ⊢
    by_cases hstart : b = Config.startByte
    · exact absurd (by simp [huntByte, hstart]) h
    · simpa [huntByte, hstart] using hst
  | len =>
    rw [frameByte_len hst] at h ⊢
    by_cases hlong : Config.maxPayload < b.toNat
    · rw [lenByte, if_pos hlong]
      rfl
    · exact absurd (by simp [lenByte, hlong]) h
  | cmd => exact absurd (by rw [frameByte_cmd hst]; rfl) h
  | pay => exact absurd (by rw [frameByte_pay hst]; rfl) h
  | csum => exact absurd (by rw [frameByte_csum hst]; rfl) h
  | fin =>
    rw [frameByte_fin hst, finByte_framer]
    rfl

/-- A framing cause comes from the framer alone: the byte that records one completes no packet, because the packet's
dispatch would record at most a cause of another class. -/
theorem frameByte_of_framing_recorded {b : Byte} {s t : State} {c : Cause} (h : byteStep b s = .next t)
    (hclass : c.errorClass = .framingError) (hrecorded : t.events = s.events ++ [c]) :
    frameByte b s = (t, none) := by
  obtain hb | ⟨u, p, hb, hdispatch⟩ := byteStep_eq_next h
  · exact hb
  · obtain ⟨-, -, -, rfl, -⟩ := frameByte_packet hb
    obtain hsame | ⟨d, hother, hd⟩ := dispatch_events hdispatch
    · simp [hsame] at hrecorded
    · obtain rfl : d = c := by simpa [hd] using hrecorded
      exact absurd hclass hother

/-- Settles O29: a framing cause is recorded by a framer rule that ends in HUNT or by the timeout check's drop, and
neither writes `tx`, `pos` or `mv`. -/
theorem framingErrorIsSilent : Obligations.FramingErrorIsSilent := by
  unfold Obligations.FramingErrorIsSilent
  refine ⟨fun b s t c h hclass hrecorded => ?_, fun s hrecorded => ?_⟩
  · obtain rfl : (frameByte b s).1 = t := congrArg Prod.fst (frameByte_of_framing_recorded h hclass hrecorded)
    exact ⟨frameByte_hunt_of_recorded (by simp [hrecorded]), frameByte_tx b s, frameByte_pos b s, frameByte_mv b s⟩
  · obtain hkept | ⟨-, hdropped⟩ := timeoutCheck_cases s
    · simp [hkept] at hrecorded
    · rw [hdropped]
      exact ⟨rfl, rfl, rfl, rfl⟩

/-! ### Every step has one next state (R214, R226) -/

/-- Settles O48: the idle step and reset answer outright, and the bytes of a tick are drained one answered byte after
the other. -/
theorem everyStepGoesOn : Obligations.EveryStepGoesOn := by
  unfold Obligations.EveryStepGoesOn
  exact step_total

theorem step_of_no_input {s : State} (h : s.inputs = []) : step s = .next { s with tx := [], events := [] } := by
  simp only [step, runInput, h]

/-- Settles O50: of the three kinds of step only the idle one has no input. -/
theorem noInputHoldsTheState : Obligations.NoInputHoldsTheState := by
  unfold Obligations.NoInputHoldsTheState
  exact fun _ => step_of_no_input

end Sys2Proof.Machine
end

section
/-! SUPPORT. Hazards between the events of a tick (spec/70_reset_and_hazards.md): a pulse width written under a move
(R247), a frame that meets an expired one (R250), and two commands in one tick (R245, R246). -/

open Sys2Proof.Claims

namespace Sys2Proof.Machine

/-! ### A pulse width written to a moving channel (R247) -/

/-- Of two pulse widths written to one channel, around a write of its move, only the second stays. -/
theorem State.setPos_setMove_setPos (s : State) (i : Channel) (v w : Half) (m : Move) :
    ((s.setPos i v).setMove i m).setPos i w = (s.setMove i m).setPos i w := by
  simp [State.setPos, State.setMove]

/-- Settles O40: a step reads the move, which the write leaves alone, and commits over the written width. -/
theorem nextStepOverwritesSetServo : Obligations.NextStepOverwritesSetServo := by
  unfold Obligations.NextStepOverwritesSetServo
  intro i pw s h
  have hmove : (s.setPos i pw).getMove i = s.getMove i := State.getMove_setPos s i pw i
  have hwritten : eligible i (s.setPos i pw) := by rwa [eligible, hmove, State.setPos_now]
  refine ⟨?_, hmove⟩
  rw [motionStep_of_eligible h, motionStep_of_eligible hwritten, hmove, State.setPos_now, State.setPos_setMove_setPos]

/-! ### A frame after a pause (R250) -/

/-- From HUNT, the frame of a command with no byte after it runs that command and nothing else. -/
theorem drain_encode_last {s : State} (i : Instr) (hst : s.framer.fstate = .hunt) :
    ∃ buffer : Vector Byte 32, drain (encode i) s = exec i { s with framer := huntingWith buffer } := by
  simpa using drain_encode i [] hst

/-- A tick later than the window of an open frame drops it after the motion phase; then come the tick's bytes. -/
theorem step_tick_of_expired {s : State} {now : Time} {bytes : List Byte} {later : List Input}
    (hin : s.inputs = .tick now bytes :: later) (hopen : s.framer.fstate ≠ .hunt)
    (hlate : s.params.frameTimeout.toNat < since now s.framer.ft0) :
    step s = drain bytes (dropFrame .frameTimeout
      (motionPhase { s with now := now, tx := [], events := [], inputs := later })) := by
  simp only [step, runInput, hin, tick, beforeBytes]
  rw [timeoutCheck_of_expired (by simpa using hopen) (by simpa using hlate)]
  rfl

/-- Settles O43: the drop leaves the framer in HUNT, where the new frame runs its command, and its cause is the first
that the tick records. -/
theorem pauseRecoversTheFramer : Obligations.PauseRecoversTheFramer := by
  unfold Obligations.PauseRecoversTheFramer
  intro s now later i hin hopen hlate
  have hevents := motionPhase_events { s with now := now, tx := [], events := [], inputs := later }
  have hstep := step_tick_of_expired hin hopen hlate
  rw [dropFrame, State.record, hevents] at hstep
  rw [hstep]
  exact drain_encode_last i rfl

/-! ### Two commands in one tick (R245, R246) -/

/-- From HUNT, the frames of two commands run both, the second in the state the first leaves. -/
theorem drain_two_encodes {s : State} (i j : Instr) (hst : s.framer.fstate = .hunt) :
    ∃ (first second : Vector Byte 32) (u : State), exec i { s with framer := huntingWith first } = .next u
      ∧ drain (encode i ++ encode j) s = exec j { u with framer := huntingWith second } := by
  obtain ⟨first, hfirst⟩ := drain_encode i (encode j) hst
  obtain ⟨u, hu⟩ := exec_total i { s with framer := huntingWith first }
  obtain ⟨hframer, -⟩ := commandsLeaveFramerAndInputs i _ u hu
  obtain ⟨second, hsecond⟩ := drain_encode_last j (congrArg Framer.fstate hframer)
  exact ⟨first, second, u, hu, by rw [hfirst, hu, andThen_next, hsecond]⟩

/-- Settles O46: the status is read from the state in which STOP_MOVE has cleared every flag. -/
theorem stopIsSeenInTheSameTick : Obligations.StopIsSeenInTheSameTick := by
  unfold Obligations.StopIsSeenInTheSameTick
  intro s hst
  obtain ⟨first, second, u, hstop, hdrain⟩ := drain_two_encodes (.stopMove 0xFF) .getMoveStatus hst
  obtain rfl : replyOk [] (clearAllActive { s with framer := huntingWith first }) = u := Host.Outcome.next.inj hstop
  have hidle (i : Channel) :
      ((clearAllActive { s with framer := huntingWith first }).getMove i).active = false := by
    rw [clearAllActive_getMove]
  obtain ⟨-, hstatus, -⟩ := getMoveStatusReportsFlagsAndPositions
  obtain ⟨flag, degrees, hexec, hflag, -⟩ := hstatus
    { replyOk [] (clearAllActive { s with framer := huntingWith first }) with framer := huntingWith second }
  have hzero (i : Channel) : flag i = 0x00 := (hflag i).trans (if_neg (ne_true_of_eq_false (hidle i)))
  rw [hzero, hzero, hzero, hzero] at hexec
  exact ⟨_, _, rfl, hdrain.trans hexec, rfl, rfl, hidle⟩

/-- Settles O47: MOVE_STEPPED writes no pulse width, so GET_SERVO reads the old one. -/
theorem moveIsNotSeenInTheSameTick : Obligations.MoveIsNotSeenInTheSameTick := by
  unfold Obligations.MoveIsNotSeenInTheSameTick
  intro s i ch target stepDeg delay hst hch
  obtain ⟨first, second, u, hmove, hdrain⟩ :=
    drain_two_encodes (.moveStepped ch target stepDeg delay) (.getServo ch) hst
  rw [exec_moveStepped hch] at hmove
  obtain rfl := Host.Outcome.next.inj hmove
  rw [exec_getServo hch, be16_eq] at hdrain
  exact ⟨_, hdrain, rfl, rfl, congrArg Move.active (State.getMove_setMove_same _ _ _)⟩

end Sys2Proof.Machine
end

section
/-! SUPPORT. True time (spec/70_reset_and_hazards.md R254): timestamps of recent true times measure true elapsed time,
and every part of a tick keeps the timestamps recent. -/

open Sys2Proof.Claims

namespace Sys2Proof.Machine

/-! ### Timestamps of true times -/

theorem since_stampOf {L N : Nat} (hle : L ≤ N) (hlt : N - L < 2 ^ 32) : since (stampOf N) (stampOf L) = N - L := by
  rw [since, stampOf, stampOf, BitVec.toNat_sub, BitVec.toNat_ofNat, BitVec.toNat_ofNat]
  omega

theorem stampedWithin_self (N bound : Nat) : stampedWithin N bound (stampOf N) :=
  ⟨N, le_rfl, by omega, rfl⟩

section
variable {T g bound : Nat} {t : Time} (h : stampedWithin T bound t) (hgap : g + bound < 2 ^ 32)
include h hgap

/-- A timestamp that is recent at one tick gives the true elapsed time at the next. -/
theorem stampedWithin.since_eq :
    ∃ L, L ≤ T ∧ t = stampOf L ∧ since (stampOf (T + g)) t = T + g - L := by
  obtain ⟨L, hL, hbound, rfl⟩ := h
  exact ⟨L, hL, rfl, since_stampOf (by omega) (by omega)⟩

/-- A timestamp that the next tick still measures as recent is recent there. -/
theorem stampedWithin.of_since_le (hsince : since (stampOf (T + g)) t ≤ bound) : stampedWithin (T + g) bound t := by
  obtain ⟨L, hL, ht, heq⟩ := h.since_eq hgap
  exact ⟨L, by omega, heq ▸ hsince, ht⟩

end

/-! ### The two timestamps of the clock requirement -/

/-- A Moving channel took its last step at most its interval ago. -/
def Move.TimedAt (N : Nat) (m : Move) : Prop := m.active = true → stampedWithin N m.interval.toNat m.last

/-- An open frame began at most `window` ago. -/
def Framer.TimedAt (N window : Nat) (f : Framer) : Prop := f.fstate ≠ .hunt → stampedWithin N window f.ft0

theorem clockOk_iff (N : Nat) (s : State) :
    ClockOk N s ↔ (∀ i, (s.getMove i).TimedAt N) ∧ s.framer.TimedAt N s.params.frameTimeout.toNat := Iff.rfl

theorem Move.timedAt_of_idle {N : Nat} {m : Move} (h : m.active = false) : m.TimedAt N :=
  fun hactive => absurd (hactive.symm.trans h) (by decide)

theorem Move.timedAt_of_last {N : Nat} {m : Move} (h : m.last = stampOf N) : m.TimedAt N :=
  fun _ => h ▸ stampedWithin_self N _

theorem Framer.timedAt_of_hunt {N window : Nat} {f : Framer} (h : f.fstate = .hunt) : f.TimedAt N window :=
  fun hopen => absurd h hopen

/-! ### The start of the next tick: the motion phase and the timeout check -/

/-- A channel that is due takes the tick's timestamp; one that is not was stepped within its interval (R171, R176). -/
theorem motionStep_timedAt {T g : Nat} {s : State} {i : Channel} (hnow : s.now = stampOf (T + g))
    (hgap : g + 65535 < 2 ^ 32) (h : (s.getMove i).TimedAt T) : ((motionStep i s).getMove i).TimedAt (T + g) := by
  by_cases hdue : eligible i s
  · rw [motionStep_getMove_of_eligible hdue]
    exact Move.timedAt_of_last ((stepMove_last _ _).trans hnow)
  · rw [motionStep_of_not_eligible hdue]
    intro hactive
    have hinterval := (s.getMove i).interval.isLt
    have hearly : ¬ (s.getMove i).interval.toNat ≤ since s.now (s.getMove i).last := fun hle => hdue ⟨hactive, hle⟩
    rw [hnow] at hearly
    exact (h hactive).of_since_le (by omega) (by omega)

/-- A frame that stays open began within the window (R108). -/
theorem timeoutCheck_timedAt {T g : Nat} {s : State} (hnow : s.now = stampOf (T + g))
    (hgap : g + s.params.frameTimeout.toNat < 2 ^ 32) (h : s.framer.TimedAt T s.params.frameTimeout.toNat) :
    (timeoutCheck s).framer.TimedAt (T + g) s.params.frameTimeout.toNat := by
  by_cases hexpired : s.params.frameTimeout.toNat < since s.now s.framer.ft0
  · by_cases hst : s.framer.fstate = .hunt
    · rw [timeoutCheck_of_open (.inl hst)]
      exact Framer.timedAt_of_hunt hst
    · rw [timeoutCheck_of_expired hst hexpired]
      exact Framer.timedAt_of_hunt rfl
  · rw [timeoutCheck_of_open (.inr (Nat.not_lt.mp hexpired))]
    intro hopen
    exact (h hopen).of_since_le hgap (hnow ▸ Nat.not_lt.mp hexpired)

/-- In the tick at true time `N`: `now` is its timestamp, and the clock requirement is met. -/
def InTickAt (N : Nat) (s : State) : Prop := s.now = stampOf N ∧ ClockOk N s

@[simp] theorem timeoutCheck_now (s : State) : (timeoutCheck s).now = s.now := by
  obtain h | ⟨-, h⟩ := timeoutCheck_cases s <;> simp [h]

/-- Before its first byte a tick gives every channel its motion step and checks the frame it was left (R201). -/
theorem beforeBytes_inTickAt {T g : Nat} {s : State} (hclock : ClockOk T s)
    (hgap : g + max 65535 s.params.frameTimeout.toNat < 2 ^ 32) :
    InTickAt (T + g) (beforeBytes (stampOf (T + g)) s) := by
  obtain ⟨hmoves, hframe⟩ := (clockOk_iff T s).mp hclock
  refine ⟨by simp [beforeBytes], (clockOk_iff _ _).mpr ⟨fun i => ?_, ?_⟩⟩
  · have hmotion : (beforeBytes (stampOf (T + g)) s).getMove i
        = (motionStep i (beginTick (stampOf (T + g)) s)).getMove i := by
      rw [← motionPhase_getMove, beforeBytes, State.getMove, timeoutCheck_mv, State.getMove]
    rw [hmotion]
    exact motionStep_timedAt (beginTick_now _ s) (by omega) (hmoves i)
  · rw [beforeBytes_params, beforeBytes]
    simpa using timeoutCheck_timedAt (T := T) (s := motionPhase (beginTick (stampOf (T + g)) s)) (by simp)
      (by rw [motionPhase_params, beginTick_params]; omega) (by simpa using hframe)

/-! ### The bytes of a tick -/

/-- After a byte no frame is open, or one is that began at this byte or was open before it (R101-R107). -/
theorem frameByte_ft0 (b : Byte) (s : State) :
    (frameByte b s).1.framer.fstate = .hunt ∨ (frameByte b s).1.framer.ft0 = s.now
      ∨ (s.framer.fstate ≠ .hunt ∧ (frameByte b s).1.framer.ft0 = s.framer.ft0) := by
  cases hst : s.framer.fstate with
  | hunt =>
    rw [frameByte_hunt hst, huntByte]
    split
    · exact .inr (.inl rfl)
    · exact .inl hst
  | len =>
    rw [frameByte_len hst, lenByte]
    split
    · exact .inl rfl
    · exact .inr (.inr ⟨nofun, rfl⟩)
  | cmd => exact .inr (.inr ⟨nofun, by rw [frameByte_cmd hst]; rfl⟩)
  | pay => exact .inr (.inr ⟨nofun, by rw [frameByte_pay hst]; rfl⟩)
  | csum => exact .inr (.inr ⟨nofun, by rw [frameByte_csum hst]; rfl⟩)
  | fin => exact .inl (by rw [frameByte_fin hst, finByte_framer]; rfl)

section
variable {N : Nat} {s t : State} (hs : InTickAt N s)
include hs

theorem frameByte_inTickAt (b : Byte) : InTickAt N (frameByte b s).1 := by
  obtain ⟨hnow, hclock⟩ := hs
  obtain ⟨hmoves, hframe⟩ := (clockOk_iff N s).mp hclock
  have hframer : (frameByte b s).1.framer.TimedAt N s.params.frameTimeout.toNat := by
    obtain hhunt | hnew | ⟨hopen, hold⟩ := frameByte_ft0 b s
    · exact Framer.timedAt_of_hunt hhunt
    · intro _
      rw [hnew, hnow]
      exact stampedWithin_self N _
    · intro _
      rw [hold]
      exact hframe hopen
  obtain ⟨f, e, h⟩ := frameByte_frame b s
  rw [h] at hframer ⊢
  exact ⟨hnow, hmoves, hframer⟩

/-- MOVE_STEPPED takes the tick's timestamp (R147), STOP_MOVE leaves no move to time, and no other command writes a
move. -/
theorem Accepted.inTickAt {i : Instr} (h : Accepted i s t) : InTickAt N t := by
  obtain ⟨hnow, hclock⟩ := hs
  obtain ⟨hmoves, hframe⟩ := (clockOk_iff N s).mp hclock
  refine ⟨h.now.trans hnow, (clockOk_iff N t).mpr ⟨fun j => ?_, by rwa [h.framer, h.params]⟩⟩
  cases h with
  | ping | getServo | getAll | getMoveStatus | setServo => exact hmoves j
  | @moveStepped _ k =>
    by_cases hjk : j = k
    · subst hjk
      rw [State.getMove_setMove_same]
      exact Move.timedAt_of_last hnow
    · rw [State.getMove_setMove_ne s _ hjk]
      exact hmoves j
  | stopMove =>
    rw [clearActive_getMove]
    split
    · exact Move.timedAt_of_idle rfl
    · exact hmoves j
  | stopAll =>
    rw [clearAllActive_getMove]
    exact Move.timedAt_of_idle rfl

theorem replyOk_inTickAt (payload : List Byte) : InTickAt N (replyOk payload s) := hs

theorem exec_inTickAt {i : Instr} (h : exec i s = .next t) : InTickAt N t := by
  obtain ⟨c, rfl⟩ | ⟨payload, u, hu, rfl⟩ := exec_eq_next h
  · exact hs
  · exact replyOk_inTickAt (hu.inTickAt hs) payload

theorem dispatch_inTickAt {p : Packet} (h : dispatch p s = .next t) : InTickAt N t := by
  obtain ⟨c, -, hc⟩ | ⟨i, -, hi⟩ := dispatch_cases p s
  · obtain rfl : t = replyError c s := Host.Outcome.next.inj (h.symm.trans hc)
    exact hs
  · exact exec_inTickAt hs (hi.symm.trans h)

theorem byteStep_inTickAt {b : Byte} (h : byteStep b s = .next t) : InTickAt N t := by
  have hframe := frameByte_inTickAt hs b
  obtain hb | ⟨u, p, hb, hp⟩ := byteStep_eq_next h
  · rwa [hb] at hframe
  · rw [hb] at hframe
    exact dispatch_inTickAt hframe hp

theorem drain_inTickAt {bs : List Byte} (h : drain bs s = .next t) : InTickAt N t :=
  drain_preserves (fun _ _ _ hu hb => byteStep_inTickAt hu hb) bs hs h

end

/-- Settles O55: the start of the tick brings the timestamps to the new time, its bytes keep them there, and before it
they measure true time because they are recent. -/
theorem elapsedIsTrueTime : Obligations.ElapsedIsTrueTime := by
  unfold Obligations.ElapsedIsTrueTime
  intro T g s t rx later hclock hgap hin hstep
  have ⟨hmoves, hframe⟩ := hclock
  refine ⟨?_, fun i hactive => ?_, fun hopen => ?_⟩
  · have hbytes : drain rx (beforeBytes (stampOf (T + g)) { s with inputs := later }) = .next t := by
      simpa only [step, runInput, hin, tick] using hstep
    have hstart : ClockOk T { s with inputs := later } := hclock
    obtain ⟨-, hend⟩ := drain_inTickAt (beforeBytes_inTickAt hstart hgap) hbytes
    exact hend
  · have hinterval := (s.getMove i).interval.isLt
    exact (hmoves i hactive).since_eq (by omega)
  · exact (hframe hopen).since_eq (by omega)

end Sys2Proof.Machine
end
